-- ==== Sys2Proof/Word.lean ====
section
/-! DEFINITION. The words of the 2460: bytes and fields of its lines, and the numbered things of
00_scope.md ("Numbering"), each a bounded number. -/

namespace Sys2Proof

/-- One character of a serial line (00_scope.md, "Lines and Pins"). -/
abbrev Byte := BitVec 8

/-- A two-byte field: a ticket, a clip number, a check (R169, R145, R168). -/
abbrev Word16 := BitVec 16

/-- A group's 24-bit frame count; its arithmetic is modulo 2^24 (00_scope.md, "Numbering"). -/
abbrev FrameNo := BitVec 24

/-- Destinations 0 to 511. -/
abbrev Dest := Fin 512

/-- Sources 0 to 1023. NONE is `Option.none` wherever a source may be NONE. -/
abbrev Source := Fin 1024

/-- Panels 0 to 31. -/
abbrev PanelNo := Fin 32

/-- Monitor walls 0 to 7. -/
abbrev WallNo := Fin 8

/-- Tiles 0 to 63 within a wall. -/
abbrev TileNo := Fin 64

/-- Recorder channels 0 to 15. -/
abbrev ChannelNo := Fin 16

/-- Salvo slots 0 to 15. -/
abbrev SlotNo := Fin 16

/-- Trigger inputs 0 to 7. -/
abbrev InputNo := Fin 8

/-- A token of the pool by its place in it: place `i` is the token numbered `i + 1`, so the 255
places are the tokens 1 to 255 (R75). -/
abbrev Token := Fin 255

/-- A protect level or a panel level, 0 to 3; 0 is the highest (R3, R13). -/
abbrev Level := Fin 4

end Sys2Proof
end

