-- ==== Sys2Proof/Config.lean ====
section
/-! DEFINITION. The fixed quantities of the part. The spec leaves no value of the 2460 to the
implementation, so nothing here is free: every constant cites its rule. -/

namespace Sys2Proof.Config

/-- A millisecond in ticks of the 27 MHz clock (00_scope.md, "Time"). -/
def msTicks : Nat := 27000

/-- The longest gap between two bytes of one frame, in ticks (R153, R68). -/
def gapTicks : Nat := 27000

/-- The lead byte of every frame (R167). -/
def leadByte : Byte := 0xB4

/-- The shortest and longest body of a frame (R167). -/
def bodyMin : Nat := 6
def bodyMax : Nat := 1024

/-- Orders the order buffer holds (R156). -/
def orderRoom : Nat := 8

/-- Replies the reply list holds (R152). -/
def replyRoom : Nat := 16

/-- Notices the notice queue holds (R159). -/
def noticeRoom : Nat := 32

/-- Where the discard count and the unmatched-report count saturate (R154, R86). -/
def countTop : Nat := 65535

/-- Pairs a destination's tile list holds (R7). -/
def fanoutRoom : Nat := 8

/-- Entries a salvo slot holds (R87). -/
def salvoRoom : Nat := 48

/-- Marks a mark list holds, and the length whose reaching raises MARKS_HIGH (R146). -/
def markRoom : Nat := 32
def markHigh : Nat := 24

/-- Marks one REC_MARKS returns at most (R147). -/
def marksPerOrder : Nat := 8

/-- Reset values of the scheduler's quantities (R45). -/
def leadReset : Nat := 8192
def filterReset : Nat := 3
def guardReset : Nat := 2700
def timeoutReset : Nat := 3

/-- Reset value of a trigger input's qualification time in milliseconds (R99). -/
def qualifyReset : Nat := 10

/-- Reset value of the notice enable set: all on, except FOREIGN and GPI_EDGE (R152, R171). -/
def enableReset : Byte := 0x7B

/-- The part code and the revision letter STATUS returns (R162, R172). -/
def partCode : Nat := 2460
def revision : Nat := 0x41

end Sys2Proof.Config
end

