-- ==== Sys2Proof/Syntax.lean ====
section
/-! DEFINITION. The commands of the 2460: one constructor of `Instr` for each row of
spec/opcode_table.json. A command is one step of the part, whole and indivisible
(95_what_each_step_holds.md).

`τ` is the running time (R28) at which the step happens. A step whose instant the part's own state
fixes (the expiry of a tolerance, a freewheel boundary, the end of a qualification interval, the end
of a gap) carries no `τ`: it happens at that instant.

An order's row is the step in which the interface serves it (R157). Its arguments are those of the
order that stands oldest in the order buffer, as a `controlFrameReceived` step left it there. -/

namespace Sys2Proof

/-- The four reference groups. -/
inductive Group where
  | a | b | c | d
deriving DecidableEq, Repr

/-- Which of the three followers of a boundary acts first, second and third. R29: "the followers need
no order among themselves", so a boundary step names the order it happens in, and a claim about the
step holds for every order. -/
inductive FollowerOrder where
  | takesWallsRecorders
  | takesRecordersWalls
  | wallsTakesRecorders
  | wallsRecordersTakes
  | recordersTakesWalls
  | recordersWallsTakes
deriving DecidableEq, Repr

/-- The steps of the 2460, one constructor for each row of the table. -/
inductive Instr where
  -- the reset pin (R165)
  | resetPinAssert
  | resetPinRelease
  -- the control line's receiver (R153 to R156)
  | controlFrameReceived (τ : Nat) (bytes : List Byte)
  | controlFrameGapTimeout
  -- orders served by the interface (R157)
  | unknownOrder (τ : Nat)
  | take (τ : Nat)
  | destSet (τ : Nat)
  | lock (τ : Nat)
  | unlock (τ : Nat)
  | protect (τ : Nat)
  | query (τ : Nat)
  | seek (τ : Nat)
  | panelSet (τ : Nat)
  | panelRead (τ : Nat)
  | refSet (τ : Nat) (order : FollowerOrder)
  | refRead (τ : Nat)
  -- reference groups (R35 to R39)
  | refEdge (τ : Nat) (g : Group) (order : FollowerOrder)
  | toleranceExpiry (g : Group) (order : FollowerOrder)
  | freewheelBoundary (g : Group) (order : FollowerOrder)
  -- takes (R51, R54, R55)
  | overdueEntry (d : Dest)
  | takeTimedOut (d : Dest)
  | takeFallsDue (τ : Nat)
  | leadSet (τ : Nat)
  | leadRead (τ : Nat)
  -- the matrix line (R66 to R71)
  | carrierGain (τ : Nat)
  | carrierLoss (τ : Nat)
  | routeReport (τ : Nat) (dest source : Word16) (token : Byte) (held : Word16) (survey : Byte)
  | surveyEnd (τ : Nat) (dests sources : Word16)
  | matrixBadFrame (τ : Nat) (bytes : List Byte)
  | matrixFrameGapTimeout
  | matrixTxComplete (τ : Nat)
  -- salvo orders (R88 to R97)
  | salvoOpen (τ : Nat)
  | salvoPut (τ : Nat)
  | salvoDrop (τ : Nat)
  | salvoArm (τ : Nat)
  | salvoClear (τ : Nat)
  | salvoFire (τ : Nat)
  | salvoRead (τ : Nat)
  -- trigger inputs (R99 to R105)
  | trigSet (τ : Nat)
  | trigRead (τ : Nat)
  | triggerRawChange (τ : Nat) (i : InputNo) (level : Bool)
  | qualifiedEdge (i : InputNo)
  -- tally and walls (R116, R121 to R133)
  | tallyRead (τ : Nat)
  | nameSet (τ : Nat)
  | tileSet (τ : Nat)
  | wallFreeze (τ : Nat)
  | wallThaw (τ : Nat)
  | wallSet (τ : Nat)
  | wallRead (τ : Nat)
  | wallRecordTxComplete (τ : Nat) (w : WallNo)
  -- recorders (R137 to R148)
  | recBind (τ : Nat)
  | recStart (τ : Nat)
  | recStop (τ : Nat)
  | cueEnd (c : ChannelNo)
  | recMarks (τ : Nat)
  | recRead (τ : Nat)
  | recorderTxComplete (τ : Nat)
  -- the interface itself (R160 to R164)
  | noticeSet (τ : Nat)
  | status (τ : Nat)
  | controlTxComplete (τ : Nat)
  | blockResetLink (τ : Nat)
  | blockResetSalvos (τ : Nat)
  | blockResetWalls (τ : Nat)
  | blockResetRecorders (τ : Nat)
  | blockResetPanels (τ : Nat)
  | deviceReset (τ : Nat)
  | deviceResetTakesEffect
deriving DecidableEq, Repr

end Sys2Proof
end

