-- ==== Sys2Proof/Decode.lean ====
section
/-! DEFINITION. What a line's bytes spell: the check (R168), the receiver that finds frames in a byte
stream (R153), the common frame (R167), fields (R170), the body header (R169), the lengths of the
orders (R171), and `decodeTableWord`. The table gives no row any bits, so no word spells a command. -/

namespace Sys2Proof

/-- The command that a word of the table's bits spells: none, since no row of
spec/opcode_table.json has bits. -/
def decodeTableWord (_nbits _w : Nat) : Option Instr := none

/-! ### Fields (R170): high byte first -/

def be8 (n : Nat) : List Byte := [BitVec.ofNat 8 n]
def be16 (n : Nat) : List Byte := [BitVec.ofNat 8 (n / 256), BitVec.ofNat 8 n]
def be24 (n : Nat) : List Byte :=
  [BitVec.ofNat 8 (n / 65536), BitVec.ofNat 8 (n / 256), BitVec.ofNat 8 n]
def be32 (n : Nat) : List Byte :=
  [BitVec.ofNat 8 (n / 16777216), BitVec.ofNat 8 (n / 65536), BitVec.ofNat 8 (n / 256),
   BitVec.ofNat 8 n]

/-- The byte at an offset of a payload; a payload is read only after its length has been tested. -/
def byteAt (p : List Byte) (i : Nat) : Byte := p.getD i 0

def read8 (p : List Byte) (i : Nat) : Nat := (byteAt p i).toNat
def read16 (p : List Byte) (i : Nat) : Nat := read8 p i * 256 + read8 p (i + 1)
def read32 (p : List Byte) (i : Nat) : Nat := read16 p i * 65536 + read16 p (i + 2)

/-! ### The check (R168) -/

/-- One shift of the check register: left by one place, combined with 0x1021 when a 1 went out. -/
def crcShift (r : Word16) : Word16 := if r.msb then (r <<< 1) ^^^ 0x1021#16 else r <<< 1

/-- One byte into the check register: combined into its high eight bits, then eight shifts. -/
def crcByte (r : Word16) (b : Byte) : Word16 :=
  let r0 := r ^^^ ((b.setWidth 16) <<< 8)
  crcShift (crcShift (crcShift (crcShift (crcShift (crcShift (crcShift (crcShift r0)))))))

/-- The check of some bytes: a register that starts at 0xFFFF and takes the bytes one at a time. -/
def crc (bytes : List Byte) : Word16 := bytes.foldl crcByte 0xFFFF#16

/-- The common frame of a body (R167): lead byte, length, body, check over length and body. -/
def frameOf (body : List Byte) : List Byte :=
  Config.leadByte ::
    (be16 body.length ++ body ++ be16 (crc (be16 body.length ++ body)).toNat)

/-! ### The receiver (R153) -/

/-- A receiver's state: HUNTING, or taking a frame with the bytes taken after its lead byte. -/
inductive Receiver where
  | hunting
  | taking (got : List Byte)
deriving DecidableEq, Repr

/-- What one byte completes: nothing, a frame that is discarded (length out of range or a failed
check), or the body of a frame that passed its check. -/
inductive Received where
  | nothing
  | bad
  | body (bytes : List Byte)
deriving DecidableEq, Repr

/-- The receiver after a byte of the frame has been added to those taken. -/
def receiverJudge (got : List Byte) : Receiver × Received :=
  match got with
  | [] => (.taking [], .nothing)
  | [x] => (.taking [x], .nothing)
  | hi :: lo :: rest =>
    let n := hi.toNat * 256 + lo.toNat
    if n < Config.bodyMin ∨ Config.bodyMax < n then (.hunting, .bad)
    else if rest.length < n + 2 then (.taking got, .nothing)
    else if crc (hi :: lo :: rest.take n) = (byteAt rest n) ++ (byteAt rest (n + 1)) then
      (.hunting, .body (rest.take n))
    else (.hunting, .bad)

/-- One byte from the line, taken according to the receiver's state. -/
def receiverTake (r : Receiver) (b : Byte) : Receiver × Received :=
  match r with
  | .hunting => if b = Config.leadByte then (.taking [], .nothing) else (.hunting, .nothing)
  | .taking got => receiverJudge (got ++ [b])

/-! ### Orders (R169, R171) -/

/-- An order as the order buffer holds it: its code, its ticket, its payload length field as sent,
and its payload, the bytes after the header. -/
structure Order where
  code     : Byte
  ticket   : Word16
  declared : Nat
  payload  : List Byte
deriving DecidableEq, Repr

/-- The order in a body of kind ORDER. The outcome byte of the header is not read. -/
def orderOf (body : List Byte) : Order where
  code     := byteAt body 1
  ticket   := BitVec.ofNat 16 (read16 body 2)
  declared := read16 body 5
  payload  := body.drop 7

/-- The body of an order (R169): the header, with outcome 0, and the payload. -/
def orderBody (o : Order) : List Byte :=
  [0x01#8, o.code] ++ be16 o.ticket.toNat ++ [0x00#8] ++ be16 o.declared ++ o.payload

/-- The payload length R171 gives for an order code, or none where the code names no order. -/
def orderLength (code : Byte) : Option Nat :=
  match code.toNat with
  | 0x10 => some 5  -- TAKE
  | 0x11 => some 4  -- DEST_SET
  | 0x12 => some 3  -- LOCK
  | 0x13 => some 3  -- UNLOCK
  | 0x14 => some 4  -- PROTECT
  | 0x15 => some 2  -- QUERY
  | 0x16 => some 9  -- SEEK
  | 0x18 => some 11 -- PANEL_SET
  | 0x19 => some 1  -- PANEL_READ
  | 0x20 => some 12 -- REF_SET
  | 0x21 => some 1  -- REF_READ
  | 0x22 => some 6  -- LEAD_SET
  | 0x23 => some 0  -- LEAD_READ
  | 0x30 => some 3  -- SALVO_OPEN
  | 0x31 => some 5  -- SALVO_PUT
  | 0x32 => some 3  -- SALVO_DROP
  | 0x33 => some 1  -- SALVO_ARM
  | 0x34 => some 1  -- SALVO_CLEAR
  | 0x35 => some 1  -- SALVO_FIRE
  | 0x36 => some 1  -- SALVO_READ
  | 0x38 => some 5  -- TRIG_SET
  | 0x39 => some 1  -- TRIG_READ
  | 0x3C => some 2  -- TALLY_READ
  | 0x40 => some 10 -- NAME_SET
  | 0x41 => some 5  -- TILE_SET
  | 0x42 => some 1  -- WALL_FREEZE
  | 0x43 => some 1  -- WALL_THAW
  | 0x44 => some 3  -- WALL_SET
  | 0x45 => some 2  -- WALL_READ
  | 0x48 => some 4  -- REC_BIND
  | 0x49 => some 1  -- REC_START
  | 0x4A => some 1  -- REC_STOP
  | 0x4B => some 2  -- REC_MARKS
  | 0x4C => some 1  -- REC_READ
  | 0x50 => some 2  -- NOTICE_SET
  | 0x51 => some 0  -- STATUS
  | 0x58 => some 2  -- BLOCK_RESET
  | 0x59 => some 0  -- DEVICE_RESET
  | _ => none

/-- The order's payload has the length R171 gives for its code, and its payload length field says so
(R169, step 2 of R157). -/
def Order.formed (o : Order) : Bool :=
  orderLength o.code == some o.payload.length && o.declared == o.payload.length

/-- The order with a code, a ticket and a payload, its length field right. -/
def Order.of (code : Byte) (ticket : Word16) (payload : List Byte) : Order where
  code := code
  ticket := ticket
  declared := payload.length
  payload := payload

end Sys2Proof
end

