-- ==== Sys2Proof/Machine/State.lean ====
section
/-! DEFINITION. The state of the 2460: every record its chapters give it, as plain data, and the state
after reset. The spec's blocks are the fields of `State`; each block's record is a structure of its
own. The four reference groups, the 512 destination entries and the other numbered records are
vectors. -/

namespace Sys2Proof.Machine

/-! ### Name lists (00_scope.md, "Names on the lines"; R173) -/

/-- Destination classes. `unclassed` is the spec's NONE. -/
inductive DestClass where
  | unclassed | program | preview
deriving DecidableEq, Repr

/-- Take phases (R5). -/
inductive Phase where
  | held | waiting | sent | overdue
deriving DecidableEq, Repr

/-- Take results (R58 to R62). -/
inductive TakeResult where
  | confirmed | late | overridden | timedOut | superseded | cancelled
deriving DecidableEq, Repr

/-- Outcomes of orders, in the order of R173. `isProtected` is the spec's PROTECTED. -/
inductive Verdict where
  | done | scheduled | full | malformed | unknownOrder | outOfRange | panelOff | outsideWindow
  | locked | isProtected | matrixDown | absent | noReference | salvoState | salvoFull | notFound
  | groupMismatch | inUse | fanoutFull | recActive | unbound
deriving DecidableEq, Repr

/-- Matrix link states (R65). -/
inductive LinkState where
  | down | surveying | up
deriving DecidableEq, Repr

/-- Causes of a LINK_STATE notice (R74). -/
inductive LinkCause where
  | carrierGained | carrierLost | surveyEnd | blockReset
deriving DecidableEq, Repr

/-- Reference group states (R26). -/
inductive RefState where
  | disabled | locked | freewheel
deriving DecidableEq, Repr

/-- Kinds of a REF_STATE notice (R42). -/
inductive RefKind where
  | start | loss | acquire | jump
deriving DecidableEq, Repr

/-- Tally colours (R107). -/
inductive Colour where
  | red | green | amber | off
deriving DecidableEq, Repr

/-- The three tally counts of a source (R106). -/
inductive Counter where
  | program | preview | record
deriving DecidableEq, Repr

/-- Salvo slot states (R87). `opened` is the spec's OPEN. -/
inductive SlotState where
  | empty | opened | armed | firing
deriving DecidableEq, Repr

/-- Recorder channel states (R136). -/
inductive RecState where
  | idle | cueing | recording
deriving DecidableEq, Repr

/-- Causes of a REC_STATE notice (R149). -/
inductive RecCause where
  | order | trigger | cueEnd | blockReset
deriving DecidableEq, Repr

/-- Causes of a source-change event (R10). -/
inductive ChangeCause where
  | cut | foreign | survey | lost
deriving DecidableEq, Repr

/-- Mark causes (R145). -/
inductive MarkCause where
  | start | stop | cut | foreign | survey | lost | suspect
deriving DecidableEq, Repr

/-- Trigger modes (R99). `unused` is the spec's NONE. -/
inductive TrigMode where
  | unused | fire | recLevel | recPulse | noticeOnly
deriving DecidableEq, Repr

/-- Notice kinds (R159). -/
inductive NoticeKind where
  | takeDone | salvoDone | foreign | linkState | refState | recState | marksHigh | gpiEdge
deriving DecidableEq, Repr

/-! ### The control line interface (R152) -/

/-- A reply: the order's code and ticket, the outcome, the payload bytes (R158, R172). -/
structure Reply where
  code    : Byte
  ticket  : Word16
  verdict : Verdict
  payload : List Byte
deriving DecidableEq, Repr

/-- A notice: its kind and its payload bytes (R159, R172). -/
structure Notice where
  kind    : NoticeKind
  payload : List Byte
deriving DecidableEq, Repr

/-- The frame on the outbound control line: a reply or a notice (R160). -/
inductive Outbound where
  | reply (r : Reply)
  | notice (n : Notice)
deriving DecidableEq, Repr

/-- The interface record (R152). `lastByte` is when the latest byte of a frame under way arrived
(R153's gap); `resetDue` says that a DEVICE_RESET has been served and no further order is (R164). -/
structure Control where
  receiver : Receiver
  lastByte : Nat
  orders   : List Order
  serving  : Option Order
  replies  : List Reply
  notices  : List Notice
  line     : Option Outbound
  enables  : Byte
  discards : Nat
  lost     : Bool
  resetDue : Bool
deriving DecidableEq, Repr

/-! ### The crosspoint map (R1, R5, R6) -/

/-- The pending take record (R5). -/
structure Pending where
  source    : Source
  panel     : PanelNo
  ticket    : Word16
  tag       : Option SlotNo
  phase     : Phase
  token     : Option Token
  countdown : Nat            -- dispatch countdown, frames
  offset    : Nat            -- dispatch offset, ticks
  landing   : Nat            -- landing countdown, frames
  overdue   : Option Nat     -- overdue countdown, present in OVERDUE
  instant   : Option Nat     -- dispatch instant, from the moment the take is sent
  deferred  : Bool
deriving DecidableEq, Repr

/-- The next take record (R6). -/
structure NextTake where
  source : Source
  panel  : PanelNo
  ticket : Word16
  tag    : Option SlotNo
deriving DecidableEq, Repr

/-- A destination entry (R1). -/
structure Entry where
  source  : Option Source
  cls     : DestClass
  group   : Group
  protect : Level
  lock    : Option PanelNo
  suspect : Bool
  pending : Option Pending
  next    : Option NextTake
  tiles   : List (WallNo × TileNo)
deriving DecidableEq, Repr

/-- The map: its entries and the router's declared counts (R1, R8). -/
structure CrosspointMap where
  entries : Vector Entry 512
  dests   : Nat
  sources : Nat
deriving DecidableEq, Repr

/-- A panel record (R13). A window with low above high is empty. -/
structure Panel where
  enabled : Bool
  level   : Level
  low1    : Dest
  high1   : Dest
  low2    : Dest
  high2   : Dest
deriving DecidableEq, Repr

/-! ### Reference groups (R26, R27) -/

/-- A geometry: line period H, lines L, switch line s, tolerance T, filter constant k_ref (R27). -/
structure Geometry where
  h    : Nat
  l    : Nat
  s    : Nat
  tol  : Nat
  kref : Nat
deriving DecidableEq, Repr

/-- A group record (R26). -/
structure GroupRec where
  state  : RefState
  active : Option Geometry
  staged : Option Geometry
  period : Nat
  frame  : FrameNo
  last   : Option Nat
deriving DecidableEq, Repr

/-- The take scheduler's quantities Λ, k, G and C (R45). -/
structure Scheduler where
  lead    : Nat
  k       : Nat
  guard   : Nat
  timeout : Nat
deriving DecidableEq, Repr

/-! ### The matrix link (R65) -/

/-- The condition of a token; a stale one is recorded with its destination (R75). -/
inductive TokenState where
  | free
  | inUse
  | stale (d : Dest)
deriving DecidableEq, Repr

/-- A message to the router (R67). -/
inductive MatrixMsg where
  | routeReq (d : Dest) (src : Source) (t : Token)
  | surveyReq
deriving DecidableEq, Repr

/-- The link's record (R65), with its receiver and the message on the line (R67, R68). -/
structure Link where
  state     : LinkState
  pool      : Vector TokenState 255
  waiting   : List Dest
  unmatched : Nat
  queue     : List MatrixMsg
  line      : Option MatrixMsg
  receiver  : Receiver
  lastByte  : Nat
deriving DecidableEq, Repr

/-! ### Salvos and triggers (R87, R95, R99) -/

/-- A firing record (R95). -/
structure Firing where
  group      : Group
  landing    : FrameNo
  n          : Nat
  accepted   : Nat
  placed     : Nat
  queued     : Nat
  refused    : Nat
  refusal    : Option Verdict
  confirmed  : Nat
  late       : Nat
  overridden : Nat
  timedOut   : Nat
  superseded : Nat
  cancelled  : Nat
  deferred   : Nat
deriving DecidableEq, Repr

/-- A salvo slot (R87). -/
structure Slot where
  state       : SlotState
  group       : Group
  owner       : PanelNo
  entries     : List (Dest × Source)
  outstanding : Nat
  firing      : Option Firing
deriving DecidableEq, Repr

/-- A qualification interval: its start time and the Q, in milliseconds, it runs for (R99). -/
structure Interval where
  start : Nat
  q     : Nat
deriving DecidableEq, Repr

/-- A trigger input's record (R99) and the raw level on its pin. -/
structure Trigger where
  mode     : TrigMode
  target   : Option (Fin 16)
  q        : Byte
  enable   : Bool
  level    : Bool
  interval : Option Interval
  raw      : Bool
deriving DecidableEq, Repr

/-! ### Tally and walls (R106, R118 to R121) -/

/-- A tally record (R106). -/
structure Tally where
  program : Nat
  preview : Nat
  record  : Nat
  colour  : Colour
deriving DecidableEq, Repr

/-- A tile's kind and binding (R119). -/
inductive TileKind where
  | invalid
  | dest (d : Dest)
  | fixed (src : Source)
deriving DecidableEq, Repr

/-- A tile descriptor (R119). -/
structure Tile where
  kind  : TileKind
  blank : Bool
deriving DecidableEq, Repr

/-- The contents of a tile (R120). -/
structure Contents where
  source  : Option Source
  name    : Vector Byte 8
  colour  : Colour
  locked  : Bool
  suspect : Bool
  pending : Bool
  protect : Level
deriving DecidableEq, Repr

/-- A wall line record: UPDATE, or BLANK where `update` is false (R129). -/
structure WallRecord where
  update   : Bool
  wall     : WallNo
  tile     : TileNo
  contents : Contents
  frame    : FrameNo
deriving DecidableEq, Repr

/-- A wall record (R118) with the wall's tile descriptors (R119). -/
structure Wall where
  group  : Group
  budget : Nat
  frozen : Bool
  queue  : List TileNo
  line   : List WallRecord
  tiles  : Vector Tile 64
deriving DecidableEq, Repr

/-! ### Recorders (R136, R137, R145) -/

/-- A mark record (R145). The sources are `none` where absent, `some none` for NONE. -/
structure Mark where
  cause  : MarkCause
  group  : Group
  frame  : FrameNo
  clip   : Word16
  before : Option (Option Source)
  after  : Option (Option Source)
deriving DecidableEq, Repr

/-- A channel record (R136). -/
structure Channel where
  bound   : Option Dest
  lead    : Nat
  state   : RecState
  cue     : Option Nat
  clip    : Word16
  marks   : List Mark
  wrapped : Bool
deriving DecidableEq, Repr

/-- A recorder line command and its clip field (R137, R176). -/
inductive RecOp where
  | roll (clip : Word16)
  | halt (clip : Word16)
  | split (clip : Word16) (g : Group) (frame : FrameNo)
deriving DecidableEq, Repr

/-- A command for one channel. -/
structure RecCommand where
  channel : ChannelNo
  op      : RecOp
deriving DecidableEq, Repr

/-- The recorder unit: its channels, the recorder line queue and the command on the line (R137).
`high` holds, within one event, the MARKS_HIGH notices that the event owes: R146 raises them after
the event's REC_STATE notices. Each is as its logging left it (notes/assumptions/40.md). It is empty
between events. -/
structure Recorder where
  channels : Vector Channel 16
  queue    : List RecCommand
  line     : Option RecCommand
  high     : List Notice
deriving DecidableEq, Repr

/-- The pins that hold a level: the reset pin and the matrix carrier (00_scope.md). The trigger
inputs' levels stand in their records. -/
structure Pins where
  reset   : Bool
  carrier : Bool
deriving DecidableEq, Repr

/-- The whole part. `now` is the running time (R28). `pending` is the model's queue of the steps that
are waiting, first in, first out. -/
structure State where
  pending  : List Instr
  now      : Nat
  pins     : Pins
  control  : Control
  map      : CrosspointMap
  panels   : Vector Panel 32
  groups   : Vector GroupRec 4
  sched    : Scheduler
  link     : Link
  salvos   : Vector Slot 16
  triggers : Vector Trigger 8
  tally    : Vector Tally 1024
  walls    : Vector Wall 8
  names    : Vector (Vector Byte 8) 1024
  recorder : Recorder
deriving DecidableEq, Repr

/-! ### Why a step can stop -/

/-- Why the machine stops with a fault. The spec names no event that stops the part, and no meaning
raises a fault: the type has no constructor. Safe: nothing is claimed of a stopped part. -/
inductive Fault where
deriving DecidableEq, Repr

/-- Why a command has no meaning. `notModelled` is raised by `exec`'s arm of a row that has no meaning
yet, by that row's mnemonic; safe, since nothing is then claimed of the row. No arm raises it now. -/
inductive Refusal where
  | notModelled (mnemonic : String)
deriving DecidableEq, Repr

/-! ### The reset values -/

/-- R152. -/
def Control.reset : Control where
  receiver := .hunting
  lastByte := 0
  orders   := []
  serving  := none
  replies  := []
  notices  := []
  line     := none
  enables  := Config.enableReset
  discards := 0
  lost     := false
  resetDue := false

/-- R1. -/
def Entry.reset : Entry where
  source  := none
  cls     := .unclassed
  group   := .a
  protect := 3
  lock    := none
  suspect := false
  pending := none
  next    := none
  tiles   := []

/-- R1. -/
def CrosspointMap.reset : CrosspointMap where
  entries := Vector.replicate 512 Entry.reset
  dests   := 0
  sources := 0

/-- R13, panels 1 to 31: an empty window is held as low 511, high 0. -/
def Panel.off : Panel where
  enabled := false
  level   := 3
  low1    := 511
  high1   := 0
  low2    := 511
  high2   := 0

/-- R13, panel 0. -/
def Panel.zero : Panel where
  enabled := true
  level   := 0
  low1    := 0
  high1   := 511
  low2    := 511
  high2   := 0

/-- R13. -/
def panelsReset : Vector Panel 32 := (Vector.replicate 32 Panel.off).set 0 Panel.zero

/-- R26. -/
def GroupRec.reset : GroupRec where
  state  := .disabled
  active := none
  staged := none
  period := 0
  frame  := 0
  last   := none

/-- R45. -/
def Scheduler.reset : Scheduler where
  lead    := Config.leadReset
  k       := Config.filterReset
  guard   := Config.guardReset
  timeout := Config.timeoutReset

/-- R65. -/
def Link.reset : Link where
  state     := .down
  pool      := Vector.replicate 255 .free
  waiting   := []
  unmatched := 0
  queue     := []
  line      := none
  receiver  := .hunting
  lastByte  := 0

/-- R87. -/
def Slot.reset : Slot where
  state       := .empty
  group       := .a
  owner       := 0
  entries     := []
  outstanding := 0
  firing      := none

/-- R99. The raw level is the pin's own; low here. -/
def Trigger.reset : Trigger where
  mode     := .unused
  target   := none
  q        := BitVec.ofNat 8 Config.qualifyReset
  enable   := false
  level    := false
  interval := none
  raw      := false

/-- R106. -/
def Tally.reset : Tally where
  program := 0
  preview := 0
  record  := 0
  colour  := .off

/-- R119. -/
def Tile.reset : Tile where
  kind  := .invalid
  blank := false

/-- R118, R119. -/
def Wall.reset : Wall where
  group  := .a
  budget := 4
  frozen := false
  queue  := []
  line   := []
  tiles  := Vector.replicate 64 Tile.reset

/-- R121: eight spaces. -/
def nameReset : Vector Byte 8 := Vector.replicate 8 0x20

/-- R136. -/
def Channel.reset : Channel where
  bound   := none
  lead    := 0
  state   := .idle
  cue     := none
  clip    := 0
  marks   := []
  wrapped := false

/-- R136, R137. -/
def Recorder.reset : Recorder where
  channels := Vector.replicate 16 Channel.reset
  queue    := []
  line     := none
  high     := []

/-- The part with the reset pin asserted and nothing yet on any line: every block holds its reset
values (R165). The carrier is absent and the trigger inputs are low (notes/assumptions/2.md). The
first step that does anything is `resetPinRelease`, or a change of a pin. -/
def State.reset : State where
  pending  := []
  now      := 0
  pins     := { reset := true, carrier := false }
  control  := Control.reset
  map      := CrosspointMap.reset
  panels   := panelsReset
  groups   := Vector.replicate 4 GroupRec.reset
  sched    := Scheduler.reset
  link     := Link.reset
  salvos   := Vector.replicate 16 Slot.reset
  triggers := Vector.replicate 8 Trigger.reset
  tally    := Vector.replicate 1024 Tally.reset
  walls    := Vector.replicate 8 Wall.reset
  names    := Vector.replicate 1024 nameReset
  recorder := Recorder.reset

end Sys2Proof.Machine
end

