-- ==== Sys2Proof/Machine/Ops.lean ====
section
/-! DEFINITION. The shared operations under every meaning: reading and writing one numbered record,
the running time, and the control line's lists, its transmitter and the serving of an order. -/

namespace Sys2Proof.Machine

/-! ### Selecting among numbered records -/

/-- The numbers, from `i` on, of the records that meet `p`, ascending. -/
def selectFrom {α : Type} {n : Nat} (p : α → Bool) : Nat → List α → List (Fin n)
  | _, [] => []
  | i, x :: xs =>
    if h : i < n then
      if p x then ⟨i, h⟩ :: selectFrom p (i + 1) xs else selectFrom p (i + 1) xs
    else []

/-- The numbers of the records of a vector that meet `p`, ascending. -/
def select {α : Type} {n : Nat} (p : α → Bool) (v : Vector α n) : List (Fin n) :=
  selectFrom p 0 v.toList

/-! ### Numbered records -/

/-- A group's place among the four group records. -/
def groupIdx : Group → Fin 4
  | .a => 0
  | .b => 1
  | .c => 2
  | .d => 3

def State.entry (s : State) (d : Dest) : Entry := s.map.entries[d]
def State.setEntry (s : State) (d : Dest) (e : Entry) : State :=
  { s with map := { s.map with entries := s.map.entries.set d.1 e d.2 } }

def State.panel (s : State) (p : PanelNo) : Panel := s.panels[p]
def State.setPanel (s : State) (p : PanelNo) (r : Panel) : State :=
  { s with panels := s.panels.set p.1 r p.2 }

def State.grp (s : State) (g : Group) : GroupRec := s.groups[groupIdx g]
def State.setGrp (s : State) (g : Group) (r : GroupRec) : State :=
  { s with groups := s.groups.set (groupIdx g).1 r (groupIdx g).2 }

def State.token (s : State) (t : Token) : TokenState := s.link.pool[t]
def State.setToken (s : State) (t : Token) (c : TokenState) : State :=
  { s with link := { s.link with pool := s.link.pool.set t.1 c t.2 } }

def State.slot (s : State) (k : SlotNo) : Slot := s.salvos[k]
def State.setSlot (s : State) (k : SlotNo) (r : Slot) : State :=
  { s with salvos := s.salvos.set k.1 r k.2 }

def State.trig (s : State) (i : InputNo) : Trigger := s.triggers[i]
def State.setTrig (s : State) (i : InputNo) (r : Trigger) : State :=
  { s with triggers := s.triggers.set i.1 r i.2 }

def State.tallyOf (s : State) (x : Source) : Tally := s.tally[x]
def State.setTally (s : State) (x : Source) (r : Tally) : State :=
  { s with tally := s.tally.set x.1 r x.2 }

def State.wall (s : State) (w : WallNo) : Wall := s.walls[w]
def State.setWall (s : State) (w : WallNo) (r : Wall) : State :=
  { s with walls := s.walls.set w.1 r w.2 }

def State.tile (s : State) (w : WallNo) (t : TileNo) : Tile := (s.wall w).tiles[t]

def State.nameOf (s : State) (x : Source) : Vector Byte 8 := s.names[x]
def State.setName (s : State) (x : Source) (v : Vector Byte 8) : State :=
  { s with names := s.names.set x.1 v x.2 }

def State.chan (s : State) (c : ChannelNo) : Channel := s.recorder.channels[c]
def State.setChan (s : State) (c : ChannelNo) (r : Channel) : State :=
  { s with recorder := { s.recorder with channels := s.recorder.channels.set c.1 r c.2 } }

/-! ### Time and frames -/

/-- The running time moves on to `τ`; it never runs backwards (R28, notes/assumptions/4.md). -/
def State.clock (s : State) (τ : Nat) : State := { s with now := max s.now τ }

/-- A group's frame count as a stamp; a DISABLED group's is 0 (R30). -/
def State.stamp (s : State) (g : Group) : FrameNo := (s.grp g).frame

/-- The frame count of the group of a destination. -/
def State.destStamp (s : State) (d : Dest) : FrameNo := s.stamp (s.entry d).group

/-! ### The control line (R156 to R160) -/

/-- A notice kind's place in the notice enable set (R171). -/
def kindBit : NoticeKind → Nat
  | .takeDone => 0
  | .salvoDone => 1
  | .foreign => 2
  | .linkState => 3
  | .refState => 4
  | .recState => 5
  | .marksHigh => 6
  | .gpiEdge => 7

/-- The transmitter with an empty line begins the oldest reply, or else the oldest notice (R160). -/
def Control.begin (c : Control) : Control :=
  match c.line with
  | some _ => c
  | none =>
    match c.replies with
    | r :: rs => { c with line := some (.reply r), replies := rs }
    | [] =>
      match c.notices with
      | n :: ns => { c with line := some (.notice n), notices := ns }
      | [] => c

/-- A notice is raised: nothing when its kind's enable is off; queued when the queue has room;
otherwise dropped with the notices-lost flag set (R159). -/
def Control.raise (c : Control) (n : Notice) : Control :=
  if c.enables.getLsbD (kindBit n.kind) then
    if c.notices.length < Config.noticeRoom then
      { c with notices := c.notices ++ [n] }.begin
    else { c with lost := true }
  else c

/-- A reply joins the reply list (R158). -/
def Control.pushReply (c : Control) (r : Reply) : Control :=
  { c with replies := c.replies ++ [r] }.begin

/-- The discard count increases by one, and stays at 65535 (R154). -/
def Control.discard (c : Control) : Control :=
  { c with discards := min (c.discards + 1) Config.countTop }

def State.raise (s : State) (n : Notice) : State := { s with control := s.control.raise n }
def State.pushReply (s : State) (r : Reply) : State := { s with control := s.control.pushReply r }
def State.discard (s : State) : State := { s with control := s.control.discard }

/-- The MARKS_HIGH notices that an event owes are raised, after its other notices (R146). -/
def State.flushHigh (s : State) : State :=
  let s1 := { s with recorder := { s.recorder with high := [] } }
  s.recorder.high.foldl State.raise s1

/-! ### Serving an order (R157) -/

/-- What serving an order comes to: the state it leaves, the outcome and the reply's payload. -/
structure Answer where
  state   : State
  verdict : Verdict
  payload : List Byte

/-- An order may be served: none is being served, the reply list has room (R157), no DEVICE_RESET has
been served (R164), and the reset pin is not held (R165). -/
def State.canServe (s : State) : Bool :=
  !s.pins.reset && s.control.serving.isNone && !s.control.resetDue
    && decide (s.control.replies.length < Config.replyRoom)

/-- The oldest order becomes the order served; it stays in the buffer (R157, R156). -/
def State.beginServing (s : State) (o : Order) : State :=
  { s with control := { s.control with serving := some o } }

/-- The order's reply is queued, after every notice its serving raised, and the order leaves the
buffer (R157, R163). -/
def State.finishServing (s : State) (o : Order) (v : Verdict) (payload : List Byte) : State :=
  let s1 := s.flushHigh
  let c := { s1.control with serving := none, orders := s1.control.orders.tail }
  { s1 with control := c.pushReply ⟨o.code, o.ticket, v, payload⟩ }

/-- The oldest buffered order is served by `act` if it is one of those `mine` names and an order may be
served now; otherwise no order of this kind is served, and nothing changes (notes/assumptions/5.md). -/
def State.serveIf (s : State) (τ : Nat) (mine : Order → Bool) (act : Order → State → Answer) : State :=
  if s.canServe then
    match s.control.orders with
    | [] => s
    | o :: _ =>
      if mine o then
        let a := act o ((s.clock τ).beginServing o)
        a.state.finishServing o a.verdict a.payload
      else s
  else s

/-- The form test of step 2 of R157, before the block that owns the order serves it. -/
def ifFormed (act : Order → State → Answer) (o : Order) (s : State) : Answer :=
  if o.formed then act o s else ⟨s, .malformed, []⟩

/-- The step in which the order with a code is served. `act` is given the payload. -/
def State.serve (s : State) (τ : Nat) (code : Byte) (act : Order → State → Answer) : State :=
  s.serveIf τ (fun o => o.code == code) (ifFormed act)

/-! ### Steps -/

/-- A step at running time `τ`, when the reset pin is not held: while it is, every block holds its
reset values (R165), and nothing changes. -/
def State.event (s : State) (τ : Nat) (f : State → State) : State :=
  if s.pins.reset then s else (f (s.clock τ)).flushHigh

end Sys2Proof.Machine
end

