-- ==== Sys2Proof/Machine/Flags.lean ====
section
/-! DEFINITION. Derived quantities, none of which changes the state: the colour of a source (R107),
what a tile shows (R120), geometry (R27), the filter (R56), the reading of a group (R30), and the
landing arithmetic (R48, R49, R53). -/

namespace Sys2Proof.Machine

/-- A value clamped into a range (00_scope.md, "Numbers and ranges"). -/
def clamp (lo hi x : Nat) : Nat := max lo (min hi x)

/-- The ceiling of a quotient. -/
def ceilDiv (x y : Nat) : Nat := (x + (y - 1)) / y

/-! ### Tally (R107) -/

/-- The colour that a source's counts give. -/
def colourOf (r : Tally) : Colour :=
  if 0 < r.program then .red
  else if 0 < r.preview then .green
  else if 0 < r.record then .amber
  else .off

/-! ### Presence (R8) -/

/-- A destination is present when its number is below the declared destination count. -/
def State.present (s : State) (d : Dest) : Bool := decide (d.1 < s.map.dests)

/-- A source is in range for takes when its number is below the declared source count. -/
def State.declared (s : State) (x : Source) : Bool := decide (x.1 < s.map.sources)

/-! ### Tiles (R119, R120) -/

/-- The source a tile of a kind shows. -/
def State.shown (s : State) (k : TileKind) : Option Source :=
  match k with
  | .invalid => none
  | .dest d => (s.entry d).source
  | .fixed x => some x

/-- The name of a shown source; eight spaces when it is NONE. -/
def State.shownName (s : State) (x : Option Source) : Vector Byte 8 :=
  match x with
  | none => nameReset
  | some y => s.nameOf y

/-- The colour of a shown source; OFF when it is NONE (R106). -/
def State.shownColour (s : State) (x : Option Source) : Colour :=
  match x with
  | none => .off
  | some y => (s.tallyOf y).colour

/-- The contents of a tile of a kind (R120). -/
def State.contents (s : State) (k : TileKind) : Contents :=
  match k with
  | .dest d =>
    { source  := s.shown k
      name    := s.shownName (s.shown k)
      colour  := s.shownColour (s.shown k)
      locked  := (s.entry d).lock.isSome
      suspect := (s.entry d).suspect
      pending := (s.entry d).pending.isSome
      protect := (s.entry d).protect }
  | _ =>
    { source  := s.shown k
      name    := s.shownName (s.shown k)
      colour  := s.shownColour (s.shown k)
      locked  := false
      suspect := false
      pending := false
      protect := 3 }

/-- A tile is valid when its kind is DEST or FIXED (R119). -/
def TileKind.valid : TileKind → Bool
  | .invalid => false
  | _ => true

/-- The tiles of a wall that show a source, ascending; none of them is INVALID (R125). -/
def State.showing (s : State) (w : WallNo) (x : Source) : List TileNo :=
  select (fun t => s.shown t.kind == some x) (s.wall w).tiles

/-- The valid tiles of a wall, ascending. -/
def State.validTiles (s : State) (w : WallNo) : List TileNo :=
  select (fun t => t.kind.valid) (s.wall w).tiles

/-! ### Geometry and the filter (R27, R56) -/

/-- F, the frame period. -/
def Geometry.frameTicks (q : Geometry) : Nat := q.l * q.h

/-- S, the switch point. -/
def Geometry.switchTicks (q : Geometry) : Nat := q.s * q.h

/-- The filter with constant `k`: x + floor((m − x) / 2^k), the quotient exact (R56). The result lies
between `x` and `m`, so it is never negative. -/
def filterStep (k x m : Nat) : Nat := (x + ((m : Int) - x) / (2 ^ k : Nat)).toNat

/-- The filter of Λ clamps its measurement to 0–65535 (R56, R57). -/
def leadFilter (k lead m : Nat) : Nat := filterStep k lead (clamp 0 65535 m)

/-- The filter of P clamps its measurement to floor(F/2)–2F (R35, R40). -/
def periodFilter (q : Geometry) (p m : Nat) : Nat :=
  filterStep q.kref p (clamp (q.frameTicks / 2) (2 * q.frameTicks) m)

/-! ### Reading a group (R30) -/

/-- t: the running time minus the last boundary time; 0 for a group in DISABLED. -/
def State.since (s : State) (g : Group) : Nat :=
  match (s.grp g).last with
  | none => 0
  | some b => s.now - b

/-- F of a group's active geometry; 0 in DISABLED. -/
def State.frameTicks (s : State) (g : Group) : Nat :=
  match (s.grp g).active with
  | none => 0
  | some q => q.frameTicks

/-- S of a group's active geometry; 0 in DISABLED. -/
def State.switchTicks (s : State) (g : Group) : Nat :=
  match (s.grp g).active with
  | none => 0
  | some q => q.switchTicks

/-- t as a take is placed with it: clamped to F − 1 (R48). -/
def State.placingTime (s : State) (g : Group) : Nat := min (s.since g) (s.frameTicks g - 1)

/-! ### Landing and dispatch (R48, R49, R53) -/

/-- Where a take lands and when it is sent: the landing frame, the landing count n, the dispatch
countdown a and the dispatch offset o. -/
structure Placement where
  landing   : FrameNo
  n         : Nat
  countdown : Nat
  offset    : Nat
deriving DecidableEq, Repr

/-- n = max(0, ceil((margin + t − S) / F)). -/
def landingCount (margin t S F : Nat) : Nat :=
  if margin + t ≤ S then 0 else ceilDiv (margin + t - S) F

/-- The placement of a take from a reading of its group (R48, R49): n from Λ + G, and D = n × F + S −
Λ − G split into whole frames and a remainder. D is not negative: n × F + S − t ≥ Λ + G. -/
def State.placement (s : State) (g : Group) : Placement :=
  let F := s.frameTicks g
  let S := s.switchTicks g
  let margin := s.sched.lead + s.sched.guard
  let n := landingCount margin (s.placingTime g) S F
  let D := n * F + S - margin
  { landing := s.stamp g + BitVec.ofNat 24 n, n := n, countdown := D / F, offset := D % F }

/-- The landing count of a take granted a token after waiting: Λ alone, no guard margin (R53). -/
def State.grantedLanding (s : State) (g : Group) : Nat :=
  landingCount s.sched.lead (s.placingTime g) (s.switchTicks g) (s.frameTicks g)

/-- The dispatch offset of a HELD take under a new geometry: o + S' − S, brought into 0 to F' − 1
(R52). -/
def newOffset (o oldS newS newF : Nat) : Nat :=
  if o + newS < oldS then 0 else min (o + newS - oldS) (newF - 1)

end Sys2Proof.Machine
end

