-- ==== Sys2Proof/Machine/Layout.lean ====
section
/-! DEFINITION. The byte layouts of 10_frame_and_record_layouts.md: the codes of the name lists
(R173), the encoding of fields (R170), the payloads of replies and notices (R172), and the bodies and
frames of every line (R169, R174, R175, R176). -/

namespace Sys2Proof.Machine

/-! ### Codes (R173) -/

def Verdict.code : Verdict → Nat
  | .done => 0
  | .scheduled => 1
  | .full => 2
  | .malformed => 3
  | .unknownOrder => 4
  | .outOfRange => 5
  | .panelOff => 6
  | .outsideWindow => 7
  | .locked => 8
  | .isProtected => 9
  | .matrixDown => 10
  | .absent => 11
  | .noReference => 12
  | .salvoState => 13
  | .salvoFull => 14
  | .notFound => 15
  | .groupMismatch => 16
  | .inUse => 17
  | .fanoutFull => 18
  | .recActive => 19
  | .unbound => 20

def TakeResult.code : TakeResult → Nat
  | .confirmed => 0
  | .late => 1
  | .overridden => 2
  | .timedOut => 3
  | .superseded => 4
  | .cancelled => 5

def MarkCause.code : MarkCause → Nat
  | .start => 0
  | .stop => 1
  | .cut => 2
  | .foreign => 3
  | .survey => 4
  | .lost => 5
  | .suspect => 6

def Phase.code : Phase → Nat
  | .held => 0
  | .waiting => 1
  | .sent => 2
  | .overdue => 3

def LinkState.code : LinkState → Nat
  | .down => 0
  | .surveying => 1
  | .up => 2

def LinkCause.code : LinkCause → Nat
  | .carrierGained => 0
  | .carrierLost => 1
  | .surveyEnd => 2
  | .blockReset => 3

def RefState.code : RefState → Nat
  | .disabled => 0
  | .locked => 1
  | .freewheel => 2

def groupCode : Group → Nat
  | .a => 0
  | .b => 1
  | .c => 2
  | .d => 3

def RefKind.code : RefKind → Nat
  | .start => 0
  | .loss => 1
  | .acquire => 2
  | .jump => 3

def DestClass.code : DestClass → Nat
  | .unclassed => 0
  | .program => 1
  | .preview => 2

def Colour.code : Colour → Nat
  | .red => 0
  | .green => 1
  | .amber => 2
  | .off => 3

def SlotState.code : SlotState → Nat
  | .empty => 0
  | .opened => 1
  | .armed => 2
  | .firing => 3

def RecState.code : RecState → Nat
  | .idle => 0
  | .cueing => 1
  | .recording => 2

def RecCause.code : RecCause → Nat
  | .order => 0
  | .trigger => 1
  | .cueEnd => 2
  | .blockReset => 3

def TrigMode.code : TrigMode → Nat
  | .unused => 0
  | .fire => 1
  | .recLevel => 2
  | .recPulse => 3
  | .noticeOnly => 4

def TileKind.code : TileKind → Nat
  | .invalid => 0
  | .dest _ => 1
  | .fixed _ => 2

/-! ### Fields (R170) -/

def flagByte (b : Bool) : List Byte := be8 (if b then 1 else 0)
/-- A source; NONE is 0xFFFF. -/
def srcField : Option Source → List Byte
  | none => be16 0xFFFF
  | some x => be16 x.1
/-- A source of a mark; one that is absent is 0xFFFE. -/
def markSrcField : Option (Option Source) → List Byte
  | none => be16 0xFFFE
  | some x => srcField x
/-- A one-byte field; absence is 0xFF. -/
def optField : Option Nat → List Byte
  | none => be8 0xFF
  | some n => be8 n
/-- A token is its number, 1 to 255; an absent one is 0. -/
def tokenField : Option Token → List Byte
  | none => be8 0
  | some t => be8 (t.1 + 1)
/-- A destination; absence is 0xFFFF. -/
def destField : Option Dest → List Byte
  | none => be16 0xFFFF
  | some d => be16 d.1
def frameField (f : FrameNo) : List Byte := be24 f.toNat
def absentBytes (n : Nat) : List Byte := List.replicate n 0xFF
/-- A list of varying length: a one-byte count and the items. -/
def listField {α : Type} (item : α → List Byte) (xs : List α) : List Byte :=
  be8 xs.length ++ xs.flatMap item

/-! ### Records (R172) -/

def panelRecord (p : PanelNo) (r : Panel) : List Byte :=
  be8 p.1 ++ flagByte r.enabled ++ be8 r.level.1 ++ be16 r.low1.1 ++ be16 r.high1.1
    ++ be16 r.low2.1 ++ be16 r.high2.1

def geometryRecord : Option Geometry → List Byte
  | none => List.replicate 14 0
  | some q => be16 q.h ++ be16 q.l ++ be16 q.s ++ be32 q.tol ++ be8 q.kref ++ be8 1 ++ be16 0

def firingRecord : Option Firing → List Byte
  | none => absentBytes 17
  | some r =>
    be8 (groupCode r.group) ++ frameField r.landing ++ be8 r.n ++ be8 r.accepted ++ be8 r.placed
      ++ be8 r.queued ++ be8 r.refused ++ optField (r.refusal.map Verdict.code)
      ++ be8 r.confirmed ++ be8 r.late ++ be8 r.overridden ++ be8 r.timedOut ++ be8 r.superseded
      ++ be8 r.cancelled ++ be8 r.deferred

def markRecord (m : Mark) : List Byte :=
  be8 m.cause.code ++ be8 (groupCode m.group) ++ frameField m.frame ++ be16 m.clip.toNat
    ++ markSrcField m.before ++ markSrcField m.after

/-- LOCKED in bit 0, SUSPECT in bit 1, PENDING in bit 2. -/
def markersByte (c : Contents) : List Byte :=
  be8 ((if c.locked then 1 else 0) + (if c.suspect then 2 else 0) + (if c.pending then 4 else 0))

def contentsRecord (c : Contents) : List Byte :=
  srcField c.source ++ c.name.toList ++ be8 c.colour.code ++ markersByte c ++ be8 c.protect.1

/-- The value of a tile's kind; absent for INVALID. -/
def tileValue : TileKind → List Byte
  | .invalid => be16 0xFFFF
  | .dest d => be16 d.1
  | .fixed x => be16 x.1

/-! ### Reply payloads (R172) -/

/-- TAKE: the placement, or the indication that the take is queued. -/
def takePayload (g : Group) : Option Placement → List Byte
  | some pl => be8 (groupCode g) ++ flagByte false ++ frameField pl.landing ++ be8 pl.n
  | none => be8 (groupCode g) ++ flagByte true ++ be24 0xFFFFFF ++ be8 0xFF

def pendingPayload : Option Pending → List Byte
  | none => flagByte false ++ absentBytes 12
  | some p =>
    flagByte true ++ be16 p.source.1 ++ be8 p.panel.1 ++ be16 p.ticket.toNat
      ++ optField (p.tag.map (·.1)) ++ be8 p.phase.code ++ tokenField p.token ++ be8 p.countdown
      ++ be8 p.landing ++ optField p.overdue ++ flagByte p.deferred

def nextPayload : Option NextTake → List Byte
  | none => flagByte false ++ absentBytes 6
  | some n =>
    flagByte true ++ be16 n.source.1 ++ be8 n.panel.1 ++ be16 n.ticket.toNat
      ++ optField (n.tag.map (·.1))

def tilePair (p : WallNo × TileNo) : List Byte := be8 p.1.1 ++ be8 p.2.1

/-- QUERY (R23). -/
def State.queryPayload (s : State) (d : Dest) : List Byte :=
  let e := s.entry d
  flagByte (s.present d) ++ srcField e.source ++ be8 e.cls.code ++ be8 (groupCode e.group)
    ++ be8 e.protect.1 ++ optField (e.lock.map (·.1)) ++ flagByte e.suspect
    ++ pendingPayload e.pending ++ nextPayload e.next ++ listField tilePair e.tiles

/-- REF_READ (R43). R172 gives zeros for the fields of an absent geometry; that F and S, which stand
outside it, are sent as 0 for a DISABLED group as well is the model's choice (notes/assumptions/36.md). -/
def State.refPayload (s : State) (g : Group) : List Byte :=
  let r := s.grp g
  be8 r.state.code ++ geometryRecord r.active ++ be32 (s.frameTicks g) ++ be32 (s.switchTicks g)
    ++ geometryRecord r.staged ++ be32 r.period ++ frameField r.frame ++ be32 (s.since g)

/-- LEAD_SET, LEAD_READ (R63, R64). -/
def leadPayload (q : Scheduler) : List Byte :=
  be16 q.lead ++ be8 q.k ++ be16 q.guard ++ be8 q.timeout

/-- SALVO_FIRE that reached its entries (R94). -/
def firePayload (r : Firing) : List Byte :=
  be8 r.accepted ++ be8 r.placed ++ be8 r.queued ++ be8 r.refused
    ++ optField (r.refusal.map Verdict.code) ++ be8 (groupCode r.group) ++ frameField r.landing

def salvoEntry (p : Dest × Source) : List Byte := be16 p.1.1 ++ be16 p.2.1

/-- SALVO_READ (R97). -/
def salvoPayload (k : Slot) : List Byte :=
  be8 k.state.code ++ be8 (groupCode k.group) ++ be8 k.owner.1 ++ be8 k.outstanding
    ++ listField salvoEntry k.entries ++ flagByte k.firing.isSome ++ firingRecord k.firing

/-- TRIG_SET (R104). No list of R173 codes a low or high level: that the qualified level is sent as 0 for
low and 1 for high is the model's choice (notes/assumptions/42.md). -/
def trigPayload (i : InputNo) (r : Trigger) : List Byte :=
  be8 i.1 ++ be8 r.mode.code ++ optField (r.target.map (·.1)) ++ [r.q] ++ flagByte r.enable
    ++ flagByte r.level

/-- TRIG_READ (R105). The raw level is coded as the qualified level, which is the model's choice
(notes/assumptions/42.md). -/
def trigReadPayload (i : InputNo) (r : Trigger) : List Byte :=
  trigPayload i r ++ flagByte r.raw ++ flagByte r.interval.isSome

/-- TALLY_READ (R116). -/
def tallyPayload (r : Tally) : List Byte :=
  be16 r.program ++ be16 r.preview ++ be8 r.record ++ be8 r.colour.code

/-- WALL_READ of the wall record (R133). -/
def State.wallPayload (s : State) (w : WallNo) : List Byte :=
  let r := s.wall w
  be8 (groupCode r.group) ++ be8 r.budget ++ flagByte r.frozen
    ++ listField (fun t : TileNo => be8 t.1) r.queue ++ be8 r.line.length
    ++ be8 (s.validTiles w).length

/-- WALL_READ of one tile (R133). -/
def State.tilePayload (s : State) (w : WallNo) (t : TileNo) : List Byte :=
  let r := s.tile w t
  let q := (s.wall w).queue
  be8 r.kind.code ++ tileValue r.kind ++ flagByte r.blank ++ flagByte (q.contains t)
    ++ optField (q.findIdx? (· == t)) ++ contentsRecord (s.contents r.kind)

/-- TILE_SET (R122). -/
def tileSetPayload (w : WallNo) (t : TileNo) (r : Tile) : List Byte :=
  be8 w.1 ++ be8 t.1 ++ be8 r.kind.code ++ tileValue r.kind ++ flagByte r.blank

def RecOp.code : RecOp → Nat
  | .roll _ => 1
  | .halt _ => 2
  | .split _ _ _ => 3

/-- REC_READ (R148): the channel record, and the command queued for it. -/
def recPayload (r : Channel) (queued : Option RecOp) : List Byte :=
  destField r.bound ++ be8 r.lead ++ be8 r.state.code ++ optField r.cue ++ be16 r.clip.toNat
    ++ be8 r.marks.length ++ flagByte r.wrapped ++ optField (queued.map RecOp.code)

/-- STATUS (R162). -/
def State.statusPayload (s : State) : List Byte :=
  be16 Config.partCode ++ be8 Config.revision ++ be8 s.link.state.code ++ be16 s.map.dests
    ++ be16 s.map.sources ++ be8 (s.grp .a).state.code ++ be8 (s.grp .b).state.code
    ++ be8 (s.grp .c).state.code ++ be8 (s.grp .d).state.code
    ++ be8 (select (· == TokenState.inUse) s.link.pool).length
    ++ be8 (select (fun t => t != TokenState.inUse && t != TokenState.free) s.link.pool).length
    ++ be8 (select (· == TokenState.free) s.link.pool).length
    ++ be16 s.link.waiting.length ++ be16 s.control.discards ++ be16 s.link.unmatched
    ++ flagByte s.control.lost ++ be8 s.control.notices.length ++ be16 s.control.enables.toNat
    ++ be8 s.control.orders.length ++ be8 s.control.replies.length

/-! ### Notices (R172) -/

/-- TAKE_DONE (R60). -/
def takeDoneNotice (d : Dest) (ticket : Word16) (r : TakeResult) (deferred : Bool) (g : Group)
    (f : FrameNo) : Notice :=
  ⟨.takeDone, be16 d.1 ++ be16 ticket.toNat ++ be8 r.code ++ flagByte deferred
    ++ be8 (groupCode g) ++ frameField f⟩

/-- SALVO_DONE (R96). -/
def salvoDoneNotice (k : SlotNo) (r : Option Firing) : Notice :=
  ⟨.salvoDone, be8 k.1 ++ firingRecord r⟩

/-- FOREIGN (R84). The token is the one the report carried, as it stood. -/
def foreignNotice (d : Dest) (old new : Option Source) (token : Byte) (stray : Bool) (g : Group)
    (f : FrameNo) : Notice :=
  ⟨.foreign, be16 d.1 ++ srcField old ++ srcField new ++ [token] ++ flagByte stray
    ++ be8 (groupCode g) ++ frameField f⟩

/-- LINK_STATE (R74). -/
def linkNotice (after before : LinkState) (cause : LinkCause) (dests sources : Nat) : Notice :=
  ⟨.linkState, be8 after.code ++ be8 before.code ++ be8 cause.code ++ be16 dests ++ be16 sources⟩

/-- REF_STATE (R42). -/
def refNotice (g : Group) (k : RefKind) (r : GroupRec) : Notice :=
  ⟨.refState, be8 (groupCode g) ++ be8 k.code ++ be8 r.state.code ++ frameField r.frame
    ++ be32 r.period⟩

/-- REC_STATE (R149). -/
def recNotice (c : ChannelNo) (before after : RecState) (cause : RecCause) (clip : Word16)
    (d : Option Dest) (g : Group) (f : FrameNo) : Notice :=
  ⟨.recState, be8 c.1 ++ be8 before.code ++ be8 after.code ++ be8 cause.code ++ be16 clip.toNat
    ++ destField d ++ be8 (groupCode g) ++ frameField f⟩

/-- MARKS_HIGH (R146). -/
def marksHighNotice (c : ChannelNo) (length : Nat) (wrapped : Bool) : Notice :=
  ⟨.marksHigh, be8 c.1 ++ be8 length ++ flagByte wrapped⟩

/-- The action a qualified edge took (R103). -/
inductive GpiAction where
  | nothing | fire | start | stop
deriving DecidableEq, Repr

def GpiAction.code : GpiAction → Nat
  | .nothing => 0
  | .fire => 1
  | .start => 2
  | .stop => 3

/-- GPI_EDGE (R103): `reached` is the account of a fire that reached its entries. -/
def gpiNotice (i : InputNo) (rising : Bool) (r : Trigger) (act : GpiAction) (v : Verdict)
    (reached : Option Firing) : Notice :=
  ⟨.gpiEdge, be8 i.1 ++ be8 (if rising then 0 else 1) ++ be8 r.mode.code
    ++ optField (r.target.map (·.1)) ++ be8 act.code ++ be8 v.code
    ++ (match reached with
        | some f => be8 f.accepted ++ be8 f.placed ++ be8 f.queued ++ be8 f.refused
            ++ frameField f.landing
        | none => be8 0 ++ be8 0 ++ be8 0 ++ be8 0 ++ be24 0xFFFFFF)⟩

/-! ### Bodies and frames of the lines -/

/-- A reply's body: kind 0x02 (R169). -/
def Reply.body (r : Reply) : List Byte :=
  [0x02#8, r.code] ++ be16 r.ticket.toNat ++ be8 r.verdict.code ++ be16 r.payload.length ++ r.payload

/-- A notice's body: kind 0x03, ticket 0, outcome 0 (R169). -/
def Notice.body (n : Notice) : List Byte :=
  [0x03#8] ++ be8 (kindBit n.kind) ++ be16 0 ++ be8 0 ++ be16 n.payload.length ++ n.payload

/-- The frame the transmitter sends. -/
def Outbound.frame : Outbound → List Byte
  | .reply r => frameOf r.body
  | .notice n => frameOf n.body

/-- A matrix message's body (R174). -/
def MatrixMsg.body : MatrixMsg → List Byte
  | .routeReq d x t => be8 1 ++ be8 (t.1 + 1) ++ be16 d.1 ++ be16 x.1
  | .surveyReq => be8 2 ++ be8 0 ++ be16 0xFFFF ++ be16 0xFFFF

def MatrixMsg.frame (m : MatrixMsg) : List Byte := frameOf m.body

/-- A wall line record's body (R175). -/
def WallRecord.body (r : WallRecord) : List Byte :=
  be8 (if r.update then 1 else 2) ++ be8 r.wall.1 ++ be8 r.tile.1 ++ contentsRecord r.contents
    ++ frameField r.frame

def WallRecord.lineFrame (r : WallRecord) : List Byte := frameOf r.body

/-- A recorder line command's body (R176). -/
def RecCommand.body (c : RecCommand) : List Byte :=
  be8 c.op.code ++ be8 c.channel.1 ++
    (match c.op with
     | .roll clip => be16 clip.toNat ++ be8 0xFF ++ be24 0xFFFFFF
     | .halt clip => be16 clip.toNat ++ be8 0xFF ++ be24 0xFFFFFF
     | .split clip g f => be16 clip.toNat ++ be8 (groupCode g) ++ frameField f)

def RecCommand.lineFrame (c : RecCommand) : List Byte := frameOf c.body

end Sys2Proof.Machine
end

