-- ==== Sys2Proof/Machine/Operands.lean ====
section
/-! DEFINITION. The arguments of orders: a number read from a payload is tested against its numbering
range, a code against its list (R17, R170, R173). `none` is an argument out of range. -/

namespace Sys2Proof.Machine

/-- A number below a bound. -/
def below? (n v : Nat) : Option (Fin n) := if h : v < n then some ⟨v, h⟩ else none

def dest? (v : Nat) : Option Dest := below? 512 v
/-- A source that can be taken or named: NONE, 0xFFFF, is not one. -/
def source? (v : Nat) : Option Source := below? 1024 v
/-- A source or NONE. -/
def sourceOrNone? (v : Nat) : Option (Option Source) :=
  if v = 0xFFFF then some none else (source? v).map some
def panel? (v : Nat) : Option PanelNo := below? 32 v
def level? (v : Nat) : Option Level := below? 4 v
def wall? (v : Nat) : Option WallNo := below? 8 v
def tileNo? (v : Nat) : Option TileNo := below? 64 v
def channel? (v : Nat) : Option ChannelNo := below? 16 v
def slot? (v : Nat) : Option SlotNo := below? 16 v
def input? (v : Nat) : Option InputNo := below? 8 v
/-- The token a nonzero token byte names. -/
def token? (v : Nat) : Option Token := if v = 0 then none else below? 255 (v - 1)

def group? (v : Nat) : Option Group :=
  match v with
  | 0 => some .a
  | 1 => some .b
  | 2 => some .c
  | 3 => some .d
  | _ => none

def class? (v : Nat) : Option DestClass :=
  match v with
  | 0 => some .unclassed
  | 1 => some .program
  | 2 => some .preview
  | _ => none

def trigMode? (v : Nat) : Option TrigMode :=
  match v with
  | 0 => some .unused
  | 1 => some .fire
  | 2 => some .recLevel
  | 3 => some .recPulse
  | 4 => some .noticeOnly
  | _ => none

/-- The kind and binding that TILE_SET's kind code and value name (R122, step 1). -/
def tileKind? (code value : Nat) : Option TileKind :=
  match code with
  | 0 => some .invalid
  | 1 => (dest? value).map .dest
  | 2 => (source? value).map .fixed
  | _ => none

/-- SEEK's predicate (R24). -/
inductive SeekTest where
  | sourceIs (x : Option Source)
  | classIs (c : DestClass)
  | locked
  | suspect
  | pending
deriving DecidableEq, Repr

def seekTest? (code value : Nat) : Option SeekTest :=
  match code with
  | 0 => (sourceOrNone? value).map .sourceIs
  | 1 => (class? value).map .classIs
  | 2 => some .locked
  | 3 => some .suspect
  | 4 => some .pending
  | _ => none

/-- A code of a two-member list: SEEK's direction (UP, DOWN) and stop mode (ON_MATCH, ON_MISS). -/
def binary? (v : Nat) : Option Bool :=
  match v with
  | 0 => some false
  | 1 => some true
  | _ => none

/-- The blocks BLOCK_RESET may name (R163); WALLS with one wall, or with `none` for ALL. -/
inductive Block where
  | link
  | salvos
  | walls (w : Option WallNo)
  | recorders
  | panels
deriving DecidableEq, Repr

/-- The block that a BLOCK_RESET's two bytes name. The wall is read for WALLS only; 0xFF is ALL. -/
def block? (code wall : Nat) : Option Block :=
  match code with
  | 0 => some .link
  | 1 => some .salvos
  | 2 => if wall = 0xFF then some (.walls none) else (wall? wall).map (fun w => .walls (some w))
  | 3 => some .recorders
  | 4 => some .panels
  | _ => none

/-- A flag byte: above 1 is taken as yes (R170). -/
def readFlag (p : List Byte) (i : Nat) : Bool := read8 p i != 0

/-- An answer with no payload. -/
def answer (v : Verdict) (s : State) : Answer := ⟨s, v, []⟩

/-- An order refused OUT_OF_RANGE. -/
def refuseRange (s : State) : Answer := ⟨s, .outOfRange, []⟩

end Sys2Proof.Machine
end

