-- ==== Sys2Proof/Machine/Walls.lean ====
section
/-! DEFINITION. Wall distribution (chapter 7): the update queues and what queues tiles (R124, R125),
the drain at a boundary (R127), and the meanings of the wall orders. -/

namespace Sys2Proof.Machine

/-! ### Queuing tiles (R124, R125) -/

/-- To queue a tile: its number joins the end of its wall's update queue, unless it stands there. -/
def Wall.enqueue (r : Wall) (t : TileNo) : Wall :=
  if t ∈ r.queue then r else { r with queue := r.queue ++ [t] }

def State.queueTile (s : State) (p : WallNo × TileNo) : State :=
  s.setWall p.1 ((s.wall p.1).enqueue p.2)

/-- Several tiles are queued in the order given. -/
def State.queueTiles (s : State) (ps : List (WallNo × TileNo)) : State := ps.foldl State.queueTile s

/-- A change of a destination is announced: every tile in its tile list is queued (R11, R12). -/
def State.announceDest (s : State) (d : Dest) : State := s.queueTiles (s.entry d).tiles

/-- A source is announced: every valid tile that shows it is queued, on each wall in ascending order
of tile number (R114, R125). -/
def State.announceSource (s : State) (x : Source) : State :=
  s.queueTiles ((List.finRange 8).flatMap fun w => (s.showing w x).map fun t => (w, t))

/-! ### The drain (R127, R128) -/

/-- The record that a tile yields: UPDATE when it is valid, BLANK when it is INVALID. -/
def State.record (s : State) (w : WallNo) (t : TileNo) (f : FrameNo) : WallRecord :=
  let k := (s.tile w t).kind
  { update := k.valid, wall := w, tile := t, contents := s.contents k, frame := f }

/-- An INVALID tile that has yielded its BLANK has no blank pending (R119, R127). -/
def Wall.sent (r : Wall) (t : TileNo) : Wall :=
  let d := r.tiles[t]
  if d.kind.valid then r else { r with tiles := r.tiles.set t.1 { d with blank := false } t.2 }

/-- The drain of one wall: up to U tiles, oldest first, unless the wall is frozen or its line output is
not empty. `f` is the frame count of the frame that begins at the boundary. -/
def State.drainWall (s : State) (f : FrameNo) (w : WallNo) : State :=
  let r := s.wall w
  if r.frozen || !r.line.isEmpty then s
  else
    let taken := r.queue.take r.budget
    let r1 := { r with queue := r.queue.drop r.budget, line := taken.map (fun t => s.record w t f) }
    s.setWall w (taken.foldl Wall.sent r1)

/-- The wall distributor at a boundary of `g`: every wall that follows it is drained (R29, R127). -/
def State.wallsAtBoundary (s : State) (g : Group) (f : FrameNo) : State :=
  (select (fun r : Wall => r.group == g) s.walls).foldl (fun s w => s.drainWall f w) s

/-! ### Fan-out lists (R7, R123) -/

/-- The order of a tile list: ascending wall, then ascending tile. -/
def pairBefore (p q : WallNo × TileNo) : Bool :=
  decide (p.1.1 < q.1.1) || (p.1 == q.1 && decide (p.2.1 < q.2.1))

/-- A pair in its ordered place. -/
def insertPair (p : WallNo × TileNo) : List (WallNo × TileNo) → List (WallNo × TileNo)
  | [] => [p]
  | q :: qs =>
    if p = q then q :: qs else if pairBefore p q then p :: q :: qs else q :: insertPair p qs

def State.addPair (s : State) (d : Dest) (p : WallNo × TileNo) : State :=
  s.setEntry d { s.entry d with tiles := insertPair p (s.entry d).tiles }

def State.removePair (s : State) (d : Dest) (p : WallNo × TileNo) : State :=
  s.setEntry d { s.entry d with tiles := (s.entry d).tiles.filter (· != p) }

/-- The pair leaves the list of the destination a former kind was bound to. -/
def State.unbindPair (s : State) (k : TileKind) (p : WallNo × TileNo) : State :=
  match k with
  | .dest d => s.removePair d p
  | _ => s

/-- The pair joins the list of the destination a new kind is bound to. -/
def State.bindPair (s : State) (k : TileKind) (p : WallNo × TileNo) : State :=
  match k with
  | .dest d => s.addPair d p
  | _ => s

/-- A descriptor is written, and the fan-out lists and the blank pending flag follow it: set for
INVALID, cleared for a valid kind (R123). -/
def State.writeTile (s : State) (w : WallNo) (t : TileNo) (k : TileKind) : State :=
  let old := (s.tile w t).kind
  let s1 := if old = k then s else (s.unbindPair old (w, t)).bindPair k (w, t)
  let r := s1.wall w
  s1.setWall w { r with tiles := r.tiles.set t.1 { kind := k, blank := !k.valid } t.2 }

/-- Binding a tile to a kind would overfill a tile list (R122, step 2). -/
def State.fanoutFull (s : State) (w : WallNo) (t : TileNo) (k : TileKind) : Bool :=
  match k with
  | .dest d =>
    (s.tile w t).kind != .dest d && decide (Config.fanoutRoom ≤ (s.entry d).tiles.length)
  | _ => false

/-! ### The orders (R121, R122, R130 to R133) -/

/-- A character of a name: one outside 0x20 to 0x7E becomes the question mark (R121). -/
def nameChar (b : Byte) : Byte := if 0x20 ≤ b.toNat ∧ b.toNat ≤ 0x7E then b else 0x3F

def serveNameSet (o : Order) (s : State) : Answer :=
  match source? (read16 o.payload 0) with
  | none => refuseRange s
  | some x =>
    let name := Vector.ofFn fun i : Fin 8 => nameChar (byteAt o.payload (2 + i.1))
    ⟨(s.setName x name).announceSource x, .done, name.toList⟩

def serveTileSet (o : Order) (s : State) : Answer :=
  match wall? (read8 o.payload 0), tileNo? (read8 o.payload 1),
      tileKind? (read8 o.payload 2) (read16 o.payload 3) with
  | some w, some t, some k =>
    if s.fanoutFull w t k then answer .fanoutFull s
    else
      let s1 := (s.writeTile w t k).queueTile (w, t)
      ⟨s1, .done, tileSetPayload w t (s1.tile w t)⟩
  | _, _, _ => refuseRange s

def serveWallFreeze (o : Order) (s : State) : Answer :=
  match wall? (read8 o.payload 0) with
  | none => refuseRange s
  | some w =>
    ⟨s.setWall w { s.wall w with frozen := true }, .done, be8 (s.wall w).queue.length⟩

def serveWallThaw (o : Order) (s : State) : Answer :=
  match wall? (read8 o.payload 0) with
  | none => refuseRange s
  | some w =>
    let s1 := s.setWall w { s.wall w with frozen := false }
    let s2 := s1.queueTiles ((s1.validTiles w).map fun t => (w, t))
    ⟨s2, .done, be8 (s2.wall w).queue.length⟩

def serveWallSet (o : Order) (s : State) : Answer :=
  match wall? (read8 o.payload 0), group? (read8 o.payload 1) with
  | some w, some g =>
    let u := clamp 1 16 (read8 o.payload 2)
    ⟨s.setWall w { s.wall w with group := g, budget := u }, .done, be8 (groupCode g) ++ be8 u⟩
  | _, _ => refuseRange s

def serveWallRead (o : Order) (s : State) : Answer :=
  match wall? (read8 o.payload 0) with
  | none => refuseRange s
  | some w =>
    if read8 o.payload 1 = 0xFF then ⟨s, .done, s.wallPayload w⟩
    else
      match tileNo? (read8 o.payload 1) with
      | none => refuseRange s
      | some t => ⟨s, .done, s.tilePayload w t⟩

/-! ### Resets (R134) -/

/-- What a WALLS block reset or a reset of the part leaves in a line output: the record whose
transmission is under way, which is completed; the records after it are not sent (R128). -/
def lineTail (l : List WallRecord) : List WallRecord := l.take 1

/-- One wall after a WALLS block reset. The followed group and U are kept. -/
def Wall.blockReset (r : Wall) : Wall :=
  { r with frozen := false, queue := [], line := lineTail r.line,
           tiles := Vector.replicate 64 Tile.reset }

/-- The pairs of a wall leave every tile list; unannounced (R25). -/
def State.dropWallPairs (s : State) (w : WallNo) : State :=
  { s with map := { s.map with
      entries := s.map.entries.map fun e => { e with tiles := e.tiles.filter (·.1 != w) } } }

def State.resetWall (s : State) (w : WallNo) : State :=
  (s.setWall w (s.wall w).blockReset).dropWallPairs w

/-- The WALLS block reset of one wall, or of all. -/
def State.resetWalls (s : State) : Option WallNo → State
  | some w => s.resetWall w
  | none => (List.finRange 8).foldl State.resetWall s

/-! ### Meanings -/

def execNameSet (τ : Nat) (s : State) : Host.Outcome State Fault Refusal :=
  .next (s.serve τ 0x40 serveNameSet)

def execTileSet (τ : Nat) (s : State) : Host.Outcome State Fault Refusal :=
  .next (s.serve τ 0x41 serveTileSet)

def execWallFreeze (τ : Nat) (s : State) : Host.Outcome State Fault Refusal :=
  .next (s.serve τ 0x42 serveWallFreeze)

def execWallThaw (τ : Nat) (s : State) : Host.Outcome State Fault Refusal :=
  .next (s.serve τ 0x43 serveWallThaw)

def execWallSet (τ : Nat) (s : State) : Host.Outcome State Fault Refusal :=
  .next (s.serve τ 0x44 serveWallSet)

def execWallRead (τ : Nat) (s : State) : Host.Outcome State Fault Refusal :=
  .next (s.serve τ 0x45 serveWallRead)

/-- A record leaves the line output when its transmission is complete (R128). This holds while the
reset pin is held too, for the record that was under way. -/
def execWallRecordTxComplete (τ : Nat) (w : WallNo) (s : State) :
    Host.Outcome State Fault Refusal :=
  if (s.wall w).line.isEmpty then .next s
  else
    let s1 := if s.pins.reset then s else s.clock τ
    .next (s1.setWall w { s1.wall w with line := (s1.wall w).line.tail })

end Sys2Proof.Machine
end

