-- ==== Sys2Proof/Machine/TallyUnit.lean ====
section
/-! DEFINITION. Tally (chapter 6): the counts, what moves them (R109 to R112), the colour comparison
that ends each event (R113), and TALLY_READ. -/

namespace Sys2Proof.Machine

/-- One count of a record goes up by one, or down by one. -/
def Tally.bump (r : Tally) (k : Counter) (up : Bool) : Tally :=
  let move := fun n : Nat => if up then n + 1 else n - 1
  match k with
  | .program => { r with program := move r.program }
  | .preview => { r with preview := move r.preview }
  | .record => { r with record := move r.record }

/-- One count of a source moves by one; NONE has no count (R106). -/
def State.bump (s : State) (k : Counter) (up : Bool) (x : Option Source) : State :=
  match x with
  | none => s
  | some y => s.setTally y ((s.tallyOf y).bump k up)

/-- One count passes from an old source to a new one. -/
def State.moveCount (s : State) (k : Counter) (old new : Option Source) : State :=
  (s.bump k false old).bump k true new

/-- The colour comparison of a source: when the counts give another colour than the record holds, the
record takes it and the source is announced (R113). NONE is never compared. -/
def State.compareColour (s : State) (x : Option Source) : State :=
  match x with
  | none => s
  | some y =>
    let r := s.tallyOf y
    if colourOf r = r.colour then s
    else (s.setTally y { r with colour := colourOf r }).announceSource y

/-- The count that a class gives a destination (R2, R110). -/
def classCounter : DestClass → Option Counter
  | .unclassed => none
  | .program => some .program
  | .preview => some .preview

def State.bumpClass (s : State) (c : DestClass) (up : Bool) (x : Option Source) : State :=
  match classCounter c with
  | none => s
  | some k => s.bump k up x

/-- The channels in RECORDING that are bound to a destination, ascending. -/
def State.recordingOn (s : State) (d : Dest) : List ChannelNo :=
  select (fun c : Channel => c.state == .recording && c.bound == some d) s.recorder.channels

/-- The tally unit at a source-change event of `d` (R109): the count of its class and one record
count for each recording channel pass from the old source to the new; then the old source is
compared, and the new. -/
def State.tallyChange (s : State) (d : Dest) (old new : Option Source) : State :=
  let c := (s.entry d).cls
  let s1 := (s.bumpClass c false old).bumpClass c true new
  let s2 := (s.recordingOn d).foldl (fun s _ => s.moveCount .record old new) s1
  (s2.compareColour old).compareColour new

/-- The tally unit at a class change of a destination that carries `x` (R110). -/
def State.tallyClass (s : State) (old new : DestClass) (x : Option Source) : State :=
  ((s.bumpClass old false x).bumpClass new true x).compareColour x

/-- A channel bound to `d` enters RECORDING (R111) or leaves it (R112). -/
def State.tallyRecord (s : State) (d : Dest) (up : Bool) : State :=
  (s.bump .record up (s.entry d).source).compareColour (s.entry d).source

def serveTallyRead (o : Order) (s : State) : Answer :=
  match source? (read16 o.payload 0) with
  | none => refuseRange s
  | some x => ⟨s, .done, tallyPayload (s.tallyOf x)⟩

def execTallyRead (τ : Nat) (s : State) : Host.Outcome State Fault Refusal :=
  .next (s.serve τ 0x3C serveTallyRead)

end Sys2Proof.Machine
end

