-- ==== Sys2Proof/Machine/RecorderUnit.lean ====
section
/-! DEFINITION. Recorder channels (chapter 8): the recorder line and its merging (R137), marks (R145,
R146), starting, cueing and stopping (R140 to R142), following a destination (R143, R144), the
recorder orders and the RECORDERS block reset (R150). -/

namespace Sys2Proof.Machine

/-! ### The recorder line (R137) -/

/-- The line, when idle, takes the oldest queued command. -/
def Recorder.begin (r : Recorder) : Recorder :=
  match r.line, r.queue with
  | none, c :: cs => { r with line := some c, queue := cs }
  | _, _ => r

/-- The command queued for a channel, if any. -/
def queuedFor (q : List RecCommand) (c : ChannelNo) : Option RecOp :=
  (q.find? (fun x => x.channel == c)).map RecCommand.op

/-- The queued command of a channel is replaced in place. -/
def replaceQueued (q : List RecCommand) (c : ChannelNo) (op : RecOp) : List RecCommand :=
  q.map fun x => if x.channel == c then { x with op := op } else x

/-- What an issued command makes of the command already queued for its channel: `none` removes it. A
ROLL that meets a HALT becomes the SPLIT `g`, `f`, the group and frame count read at the start. The
pairings the table does not list do not arise; for them the issued command stands in place. -/
def mergeOp (queued issued : RecOp) (g : Group) (f : FrameNo) : Option RecOp :=
  match queued, issued with
  | .roll _, .split c _ _ => some (.roll c)
  | .roll _, .halt _ => none
  | .halt _, .roll c => some (.split c g f)
  | _, op => some op

/-- A command is issued: merged with the one queued for its channel, or appended (R137). -/
def Recorder.issue (r : Recorder) (c : ChannelNo) (op : RecOp) (g : Group) (f : FrameNo) : Recorder :=
  match queuedFor r.queue c with
  | none => Recorder.begin { r with queue := r.queue ++ [RecCommand.mk c op] }
  | some old =>
    match mergeOp old op g f with
    | none => { r with queue := r.queue.filter (fun x => x.channel != c) }
    | some new => { r with queue := replaceQueued r.queue c new }

def State.issue (s : State) (c : ChannelNo) (op : RecOp) (g : Group) (f : FrameNo) : State :=
  { s with recorder := s.recorder.issue c op g f }

/-- HALT for a channel, with the clip number it holds (R176). -/
def State.issueHalt (s : State) (c : ChannelNo) : State :=
  s.issue c (.halt (s.chan c).clip) .a 0

/-! ### Marks (R146) -/

/-- A mark list that gains a mark: at 32 the oldest is discarded and the wrapped flag set. -/
def Channel.log (r : Channel) (m : Mark) : Channel :=
  if r.marks.length < Config.markRoom then { r with marks := r.marks ++ [m] }
  else { r with marks := r.marks.tail ++ [m], wrapped := true }

/-- A mark is logged; the rise of the list from 23 to 24 owes a MARKS_HIGH. That the notice carries the
list length and the wrapped flag of that logging, 24 also when a further mark is logged before the event
ends and the notice is raised, is the model's choice: R146 does not say which length it is
(notes/assumptions/40.md). -/
def State.logMark (s : State) (c : ChannelNo) (m : Mark) : State :=
  let r := (s.chan c).log m
  let s1 := s.setChan c r
  if (s.chan c).marks.length + 1 = Config.markHigh then
    { s1 with recorder := { s1.recorder with
        high := s1.recorder.high ++ [marksHighNotice c r.marks.length r.wrapped] } }
  else s1

/-! ### Changes of state -/

/-- The group of a channel's bound destination; A for an unbound channel, which never leaves IDLE. -/
def State.chanGroup (s : State) (c : ChannelNo) : Group :=
  match (s.chan c).bound with
  | none => .a
  | some d => (s.entry d).group

/-- The confirmed source of a channel's bound destination. -/
def State.chanSource (s : State) (c : ChannelNo) : Option Source :=
  match (s.chan c).bound with
  | none => none
  | some d => (s.entry d).source

/-- REC_STATE is raised for a change of a channel's state (R149). -/
def State.raiseRec (s : State) (c : ChannelNo) (before : RecState) (cause : RecCause) : State :=
  let r := s.chan c
  let g := s.chanGroup c
  s.raise (recNotice c before r.state cause r.clip r.bound g (s.stamp g))

/-- The bound destination of a channel is handed to the tally unit (R111, R112). -/
def State.tallyChannel (s : State) (c : ChannelNo) (up : Bool) : State :=
  match (s.chan c).bound with
  | none => s
  | some d => s.tallyRecord d up

/-- A channel enters RECORDING, in the four steps of R141. -/
def State.enterRecording (s : State) (c : ChannelNo) (cause : RecCause) : State :=
  let r := s.chan c
  let g := s.chanGroup c
  let s1 := s.setChan c { r with state := .recording, cue := none }
  let s2 := s1.tallyChannel c true
  let s3 := s2.logMark c ⟨.start, g, s.stamp g, r.clip, none, some (s.chanSource c)⟩
  s3.raiseRec c r.state cause

/-- A start of a channel (R140): the outcome, and the state it leaves. -/
def State.recStart (s : State) (c : ChannelNo) (cause : RecCause) : Verdict × State :=
  let r := s.chan c
  if r.bound.isNone then (.unbound, s)
  else if r.state != .idle then (.recActive, s)
  else
    let g := s.chanGroup c
    let s1 := s.setChan c { r with clip := r.clip + 1 }
    let s2 := s1.issue c (.roll (r.clip + 1)) g (s.stamp g)
    if r.lead = 0 then (.done, s2.enterRecording c cause)
    else
      let s3 := s2.setChan c { s2.chan c with state := .cueing, cue := some r.lead }
      (.done, s3.raiseRec c .idle cause)

/-- A stop of a channel (R142), by its state. -/
def State.recStop (s : State) (c : ChannelNo) (cause : RecCause) : State :=
  let r := s.chan c
  match r.state with
  | .idle => s
  | .cueing =>
    let s1 := s.setChan c { r with state := .idle, cue := none }
    (s1.issueHalt c).raiseRec c .cueing cause
  | .recording =>
    let g := s.chanGroup c
    let s1 := s.logMark c ⟨.stop, g, s.stamp g, r.clip, some (s.chanSource c), none⟩
    let s2 := s1.setChan c { s1.chan c with state := .idle }
    let s3 := s2.tallyChannel c false
    (s3.issueHalt c).raiseRec c .recording cause

/-! ### Following the destination (R143, R144) -/

def markOf : ChangeCause → MarkCause
  | .cut => .cut
  | .foreign => .foreign
  | .survey => .survey
  | .lost => .lost

/-- One recording channel at a source-change event: the clip advances, SPLIT is issued, and a mark of
the event's cause is logged. -/
def State.splitChannel (g : Group) (f : FrameNo) (cause : ChangeCause) (old new : Option Source)
    (s : State) (c : ChannelNo) : State :=
  let clip := (s.chan c).clip + 1
  let s1 := s.setChan c { s.chan c with clip := clip }
  let s2 := s1.issue c (.split clip g f) g f
  s2.logMark c ⟨markOf cause, g, f, clip, some old, some new⟩

/-- The recorder unit at a source-change event of `d` (R143): the commands are issued in ascending order
of channel (R137). That the marks are logged in that order too is the model's choice
(notes/assumptions/39.md). -/
def State.splitRecorders (s : State) (d : Dest) (cause : ChangeCause) (old new : Option Source) :
    State :=
  let g := (s.entry d).group
  (s.recordingOn d).foldl (State.splitChannel g (s.stamp g) cause old new) s

/-- The recorder unit at the source-change events of one SURVEY_END, whose entries all take NONE with cause
LOST (R71): `before` is the part before the entries were written. Each recording channel whose destination
has lost its source is split (R143), in ascending order of channel, as R137 orders the commands that one
event issues. That the marks are logged in that order too is the model's choice
(notes/assumptions/39.md). -/
def State.splitLost (s before : State) : State :=
  ((select (fun c : Channel => c.state == .recording) s.recorder.channels).filter
    (fun c => before.chanSource c != s.chanSource c)).foldl
    (fun u c => u.splitChannel (s.chanGroup c) (s.stamp (s.chanGroup c)) .lost (before.chanSource c)
      (s.chanSource c) c) s

/-- Each recording channel bound to `d` logs a SUSPECT mark at a timeout (R144). R144 gives several such
channels no order: that they log in ascending order, and owe their MARKS_HIGH in it, is the model's
choice (notes/assumptions/39.md). -/
def State.logSuspect (s : State) (d : Dest) : State :=
  let e := s.entry d
  (s.recordingOn d).foldl
    (fun s c => s.logMark c
      ⟨.suspect, e.group, s.stamp e.group, (s.chan c).clip, some e.source, some e.source⟩) s

/-- One cueing channel at a boundary of its group (R141). -/
def State.cueBoundary (s : State) (c : ChannelNo) : State :=
  match (s.chan c).cue with
  | none => s
  | some n =>
    if n ≤ 1 then s.enterRecording c .cueEnd
    else s.setChan c { s.chan c with cue := some (n - 1) }

/-- The recorder unit at a boundary of `g`: each channel in CUEING whose bound destination's group is `g`
(R29, R141). R29, R113 and R141 give several such channels no order: that they are taken in ascending
order, and raise their notices and announce their sources' colours in it, is the model's choice
(notes/assumptions/38.md). -/
def State.recordersAtBoundary (s : State) (g : Group) : State :=
  ((select (fun c : Channel => c.state == .cueing && c.bound.isSome) s.recorder.channels).filter
    (fun c => s.chanGroup c == g)).foldl State.cueBoundary s

/-! ### The RECORDERS block reset (R150) -/

/-- One channel of the reset: a channel in CUEING or RECORDING enters IDLE, its HALT is issued, its
record count is given back and REC_STATE is raised; every mark list is emptied. -/
def State.resetChannel (s : State) (c : ChannelNo) : State :=
  let r := s.chan c
  let s1 :=
    if r.state == .idle then s
    else
      let s2 := s.setChan c { r with state := .idle, cue := none }
      let s3 := if r.state == .recording then s2.bump .record false (s2.chanSource c) else s2
      (s3.issueHalt c).raiseRec c r.state .blockReset
  s1.setChan c { s1.chan c with marks := [], wrapped := false }

/-- The sources carried by the channels in RECORDING, ascending, each once (R112, R117). -/
def State.recordedSources (s : State) : List Source :=
  (((select (fun c : Channel => c.state == .recording) s.recorder.channels).filterMap
    s.chanSource).dedup).insertionSort (fun a b => a.1 ≤ b.1)

def State.resetRecorders (s : State) : State :=
  let moved := s.recordedSources
  let s1 := (List.finRange 16).foldl State.resetChannel s
  moved.foldl (fun s x => s.compareColour (some x)) s1

/-! ### The orders (R139, R140, R142, R147, R148) -/

/-- The destination argument of REC_BIND: 0xFFFF unbinds (R170). -/
def bindDest? (v : Nat) : Option (Option Dest) :=
  if v = 0xFFFF then some none else (dest? v).map some

def serveRecBind (o : Order) (s : State) : Answer :=
  match channel? (read8 o.payload 0), bindDest? (read16 o.payload 1) with
  | some c, some d =>
    if (s.chan c).state != .idle then answer .recActive s
    else
      let lead := min (read8 o.payload 3) 15
      ⟨s.setChan c { s.chan c with bound := d, lead := lead }, .done, destField d ++ be8 lead⟩
  | _, _ => refuseRange s

def serveRecStart (o : Order) (s : State) : Answer :=
  match channel? (read8 o.payload 0) with
  | none => refuseRange s
  | some c =>
    match s.recStart c .order with
    | (.done, s1) =>
      ⟨s1, .done, be16 (s1.chan c).clip.toNat ++ be8 (s1.chan c).state.code
        ++ be8 ((s1.chan c).cue.getD 0)⟩
    | (v, s1) => answer v s1

def serveRecStop (o : Order) (s : State) : Answer :=
  match channel? (read8 o.payload 0) with
  | none => refuseRange s
  | some c => answer .done (s.recStop c .order)

def serveRecMarks (o : Order) (s : State) : Answer :=
  match channel? (read8 o.payload 0) with
  | none => refuseRange s
  | some c =>
    let r := s.chan c
    let n := clamp 1 Config.marksPerOrder (read8 o.payload 1)
    let left := r.marks.drop n
    ⟨s.setChan c { r with marks := left, wrapped := false }, .done,
      flagByte r.wrapped ++ be8 left.length ++ listField markRecord (r.marks.take n)⟩

def serveRecRead (o : Order) (s : State) : Answer :=
  match channel? (read8 o.payload 0) with
  | none => refuseRange s
  | some c => ⟨s, .done, recPayload (s.chan c) (queuedFor s.recorder.queue c)⟩

/-! ### Meanings -/

def execRecBind (τ : Nat) (s : State) : Host.Outcome State Fault Refusal :=
  .next (s.serve τ 0x48 serveRecBind)

def execRecStart (τ : Nat) (s : State) : Host.Outcome State Fault Refusal :=
  .next (s.serve τ 0x49 serveRecStart)

def execRecStop (τ : Nat) (s : State) : Host.Outcome State Fault Refusal :=
  .next (s.serve τ 0x4A serveRecStop)

def execRecMarks (τ : Nat) (s : State) : Host.Outcome State Fault Refusal :=
  .next (s.serve τ 0x4B serveRecMarks)

def execRecRead (τ : Nat) (s : State) : Host.Outcome State Fault Refusal :=
  .next (s.serve τ 0x4C serveRecRead)

/-- The end of a cue (R141): the boundary that brings the cue countdown of a channel to 0, as it
reaches this channel. The boundary steps do the same for every channel they reach. -/
def execCueEnd (c : ChannelNo) (s : State) : Host.Outcome State Fault Refusal :=
  if (s.chan c).state == .cueing && (s.chan c).cue == some 1 then
    .next (s.event s.now fun s => s.enterRecording c .cueEnd)
  else .next s

/-- A command finishes and the next queued one begins (R137). While the reset pin is held the queue is
empty, and nothing follows the command that was under way (R138). -/
def execRecorderTxComplete (τ : Nat) (s : State) : Host.Outcome State Fault Refusal :=
  if s.recorder.line.isNone then .next s
  else
    let s1 := if s.pins.reset then s else s.clock τ
    .next { s1 with recorder := Recorder.begin { s1.recorder with line := none } }

end Sys2Proof.Machine
end

