-- ==== Sys2Proof/Machine/Map.lean ====
section
/-! DEFINITION. The crosspoint map and access (chapter 1): writing a confirmed source and the
source-change event (R9 to R11), the suspect flag (R4), the access check (R16), and the orders that
read and set destination entries and panel records. -/

namespace Sys2Proof.Machine

/-! ### The source-change event (R9, R11) -/

/-- Two of the blocks the event is handed to, after the map holds the new source: the walls queue the
destination's tiles, and tally moves its counts. -/
def State.sourceShown (s : State) (d : Dest) (old new : Option Source) : State :=
  (s.announceDest d).tallyChange d old new

/-- The three blocks the event is handed to: the walls, tally, and the recorders, which split. -/
def State.sourceChanged (s : State) (d : Dest) (cause : ChangeCause) (old new : Option Source) :
    State :=
  (s.sourceShown d old new).splitRecorders d cause old new

/-- A confirmed source is written. A value equal to the one held raises no event (R9). -/
def State.writeSource (s : State) (d : Dest) (x : Option Source) (cause : ChangeCause) : State :=
  let old := (s.entry d).source
  if old = x then s
  else (s.setEntry d { s.entry d with source := x }).sourceChanged d cause old x

/-- NONE is written into an entry cleared at survey end (R9). The walls and tally are handed the
source-change event; the recorder unit takes those of all the entries cleared together
(`State.splitLost`). -/
def State.clearSource (s : State) (d : Dest) : State :=
  (s.setEntry d { s.entry d with source := none }).sourceShown d (s.entry d).source none

/-- The suspect flag is set or cleared, and a change of it announced (R4, R12). -/
def State.setSuspect (s : State) (d : Dest) (v : Bool) : State :=
  if (s.entry d).suspect = v then s
  else (s.setEntry d { s.entry d with suspect := v }).announceDest d

/-! ### The access check (R16) -/

/-- A destination lies within one of a panel's windows (R13). -/
def Panel.covers (p : Panel) (d : Dest) : Bool :=
  (decide (p.low1.1 ≤ d.1) && decide (d.1 ≤ p.high1.1))
    || (decide (p.low2.1 ≤ d.1) && decide (d.1 ≤ p.high2.1))

/-- The access check: `none` when it passes, otherwise the outcome of the first step that refuses.
`take` is the source of a take; without one, step 3 and the source of step 4 are left out (R18). -/
def State.accessCheck (s : State) (p : PanelNo) (d : Dest) (take : Option Source) : Option Verdict :=
  let r := s.panel p
  let e := s.entry d
  if !r.enabled then some .panelOff
  else if !r.covers d then some .outsideWindow
  else if take.isSome && s.link.state != .up then some .matrixDown
  else if !s.present d || !(take.all s.declared) then some .absent
  else if (s.grp e.group).state == .disabled then some .noReference
  else if e.lock.isSome && e.lock != some p then some .locked
  else if e.protect.1 < r.level.1 then some .isProtected
  else none

/-! ### Destination orders (R19 to R22) -/

/-- A destination stands in the entry list of a slot in OPEN, ARMED or FIRING (R19). -/
def State.inSalvo (s : State) (d : Dest) : Bool :=
  s.salvos.toList.any fun k => k.state != .empty && k.entries.any (fun p => p.1 == d)

/-- A recorder channel in CUEING or RECORDING is bound to a destination (R19). -/
def State.recorderOn (s : State) (d : Dest) : Bool :=
  s.recorder.channels.toList.any fun c => c.state != .idle && c.bound == some d

/-- A group change of a destination is refused (R19, step 2). -/
def State.inUse (s : State) (d : Dest) : Bool :=
  (s.entry d).pending.isSome || (s.entry d).next.isSome || s.inSalvo d || s.recorderOn d

def serveDestSet (o : Order) (s : State) : Answer :=
  match dest? (read16 o.payload 0), class? (read8 o.payload 2), group? (read8 o.payload 3) with
  | some d, some c, some g =>
    let e := s.entry d
    if g ≠ e.group ∧ s.inUse d then answer .inUse s
    else
      let s1 := s.setEntry d { e with cls := c, group := g }
      answer .done (if c = e.cls then s1 else s1.tallyClass e.cls c e.source)
  | _, _, _ => refuseRange s

/-- The lock owner is written, and a change of it announced (R12). -/
def State.setLock (s : State) (d : Dest) (v : Option PanelNo) : State :=
  if (s.entry d).lock = v then s
  else (s.setEntry d { s.entry d with lock := v }).announceDest d

/-- The protect level is written, and a change of it announced (R12). -/
def State.setProtect (s : State) (d : Dest) (v : Level) : State :=
  if (s.entry d).protect = v then s
  else (s.setEntry d { s.entry d with protect := v }).announceDest d

def serveLock (o : Order) (s : State) : Answer :=
  match dest? (read16 o.payload 0), panel? (read8 o.payload 2) with
  | some d, some p =>
    match s.accessCheck p d none with
    | some v => answer v s
    | none => answer .done (s.setLock d (some p))
  | _, _ => refuseRange s

/-- UNLOCK makes its own test (R21): the owner, or an enabled panel of level 0. -/
def serveUnlock (o : Order) (s : State) : Answer :=
  match dest? (read16 o.payload 0), panel? (read8 o.payload 2) with
  | some d, some p =>
    match (s.entry d).lock with
    | none => answer .done s
    | some q =>
      if q = p ∨ ((s.panel p).enabled ∧ (s.panel p).level = 0) then answer .done (s.setLock d none)
      else answer .locked s
  | _, _ => refuseRange s

def serveProtect (o : Order) (s : State) : Answer :=
  match dest? (read16 o.payload 0), panel? (read8 o.payload 2), level? (read8 o.payload 3) with
  | some d, some p, some l =>
    match s.accessCheck p d none with
    | some v => answer v s
    | none =>
      let l1 := max l (s.panel p).level
      ⟨s.setProtect d l1, .done, be8 l1.1⟩
  | _, _, _ => refuseRange s

/-! ### Reading the map (R23, R24) -/

def serveQuery (o : Order) (s : State) : Answer :=
  match dest? (read16 o.payload 0) with
  | none => refuseRange s
  | some d => ⟨s, .done, s.queryPayload d⟩

/-- An entry meets a predicate. -/
def SeekTest.holds (t : SeekTest) (e : Entry) : Bool :=
  match t with
  | .sourceIs x => e.source == x
  | .classIs c => e.cls == c
  | .locked => e.lock.isSome
  | .suspect => e.suspect
  | .pending => e.pending.isSome

/-- The next entry in a direction, unless the end of the map has been examined. -/
def seekNext (down : Bool) (d : Dest) : Option Dest :=
  if down then (if d.1 = 0 then none else dest? (d.1 - 1)) else dest? (d.1 + 1)

/-- Where a walk stops: whether an entry met the stop condition, the last entry examined, and how much
of the count is left. -/
structure SeekEnd where
  stopped   : Bool
  index     : Dest
  remaining : Nat
deriving DecidableEq, Repr

/-- The walk, with `count` further examinations after this one. `miss` stops at an entry that does not
meet the predicate. -/
def State.seekFrom (s : State) (t : SeekTest) (miss down : Bool) : Nat → Dest → SeekEnd
  | 0, d => ⟨t.holds (s.entry d) != miss, d, 0⟩
  | count + 1, d =>
    if t.holds (s.entry d) != miss then ⟨true, d, count + 1⟩
    else
      match seekNext down d with
      | none => ⟨false, d, count + 1⟩
      | some d1 => s.seekFrom t miss down count d1

def serveSeek (o : Order) (s : State) : Answer :=
  match dest? (read16 o.payload 0), binary? (read8 o.payload 2),
      seekTest? (read8 o.payload 5) (read16 o.payload 6), binary? (read8 o.payload 8) with
  | some d, some down, some t, some miss =>
    let r := s.seekFrom t miss down (clamp 1 512 (read16 o.payload 3) - 1) d
    ⟨s, .done, flagByte r.stopped ++ be16 r.index.1 ++ be16 r.remaining⟩
  | _, _, _, _ => refuseRange s

/-! ### The panel table (R14) -/

/-- A window bound: above 511 it is clamped to 511. -/
def windowBound (v : Nat) : Dest := if h : v < 512 then ⟨v, h⟩ else 511

def servePanelSet (o : Order) (s : State) : Answer :=
  match panel? (read8 o.payload 0), level? (read8 o.payload 2) with
  | some p, some l =>
    let r : Panel :=
      { enabled := readFlag o.payload 1, level := l,
        low1 := windowBound (read16 o.payload 3), high1 := windowBound (read16 o.payload 5),
        low2 := windowBound (read16 o.payload 7), high2 := windowBound (read16 o.payload 9) }
    ⟨s.setPanel p r, .done, panelRecord p r⟩
  | _, _ => refuseRange s

def servePanelRead (o : Order) (s : State) : Answer :=
  match panel? (read8 o.payload 0) with
  | none => refuseRange s
  | some p => ⟨s, .done, panelRecord p (s.panel p)⟩

/-- The PANELS block reset (R13, R15). -/
def State.resetPanels (s : State) : State := { s with panels := panelsReset }

/-! ### Meanings -/

def execDestSet (τ : Nat) (s : State) : Host.Outcome State Fault Refusal :=
  .next (s.serve τ 0x11 serveDestSet)

def execLock (τ : Nat) (s : State) : Host.Outcome State Fault Refusal :=
  .next (s.serve τ 0x12 serveLock)

def execUnlock (τ : Nat) (s : State) : Host.Outcome State Fault Refusal :=
  .next (s.serve τ 0x13 serveUnlock)

def execProtect (τ : Nat) (s : State) : Host.Outcome State Fault Refusal :=
  .next (s.serve τ 0x14 serveProtect)

def execQuery (τ : Nat) (s : State) : Host.Outcome State Fault Refusal :=
  .next (s.serve τ 0x15 serveQuery)

def execSeek (τ : Nat) (s : State) : Host.Outcome State Fault Refusal :=
  .next (s.serve τ 0x16 serveSeek)

def execPanelSet (τ : Nat) (s : State) : Host.Outcome State Fault Refusal :=
  .next (s.serve τ 0x18 servePanelSet)

def execPanelRead (τ : Nat) (s : State) : Host.Outcome State Fault Refusal :=
  .next (s.serve τ 0x19 servePanelRead)

end Sys2Proof.Machine
end

