-- ==== Sys2Proof/Machine/Takes.lean ====
section
/-! DEFINITION. Takes: the token pool and the transmit queue (R67, R75 to R78), how a take is placed,
falls due and ends (chapter 3), the accounting of a salvo's takes (R96), and the scheduler at a
boundary (R50 to R55). -/

namespace Sys2Proof.Machine

/-! ### The matrix line's transmit queue (R67) -/

/-- The line, when idle, takes the oldest message of the transmit queue. -/
def Link.begin (l : Link) : Link :=
  match l.line, l.queue with
  | none, m :: ms => { l with line := some m, queue := ms }
  | _, _ => l

def State.sendMatrix (s : State) (m : MatrixMsg) : State :=
  { s with link := Link.begin { s.link with queue := s.link.queue ++ [m] } }

/-! ### Salvo accounting (R96) -/

/-- One result counted in a firing record, and the deferred count with its flag. -/
def Firing.count (f : Firing) (r : TakeResult) (deferred : Bool) : Firing :=
  let f1 := if deferred then { f with deferred := f.deferred + 1 } else f
  match r with
  | .confirmed => { f1 with confirmed := f1.confirmed + 1 }
  | .late => { f1 with late := f1.late + 1 }
  | .overridden => { f1 with overridden := f1.overridden + 1 }
  | .timedOut => { f1 with timedOut := f1.timedOut + 1 }
  | .superseded => { f1 with superseded := f1.superseded + 1 }
  | .cancelled => { f1 with cancelled := f1.cancelled + 1 }

/-- A tagged take has ended: it is counted in its slot, which returns to ARMED with a SALVO_DONE when
no take of the firing is left. -/
def State.accountTake (s : State) (k : SlotNo) (r : TakeResult) (deferred : Bool) : State :=
  let q := s.slot k
  let q1 : Slot := { q with outstanding := q.outstanding - 1, firing := q.firing.map (·.count r deferred) }
  if q1.outstanding = 0 then
    (s.setSlot k { q1 with state := .armed }).raise (salvoDoneNotice k q1.firing)
  else s.setSlot k q1

/-! ### Ending a take (R59, R60) -/

/-- An ended take is reported: by TAKE_DONE when it has a ticket, in its slot when it has a salvo tag,
and not at all when it has neither (R60). -/
def State.reportTake (s : State) (d : Dest) (ticket : Word16) (tag : Option SlotNo) (r : TakeResult)
    (deferred : Bool) : State :=
  if ticket ≠ 0 then s.raise (takeDoneNotice d ticket r deferred (s.entry d).group (s.destStamp d))
  else
    match tag with
    | some k => s.accountTake k r deferred
    | none => s

/-- A next take ends; its end is not announced, and its deferred flag is clear (R59, R60). -/
def State.endNext (s : State) (d : Dest) (r : TakeResult) : State :=
  match (s.entry d).next with
  | none => s
  | some n => (s.setEntry d { s.entry d with next := none }).reportTake d n.ticket n.tag r false

/-- A take becomes the pending take in HELD with a placement, and its creation is announced (R47,
R48). -/
def State.placeHeld (s : State) (d : Dest) (n : NextTake) (pl : Placement) : State :=
  let p : Pending :=
    { source := n.source, panel := n.panel, ticket := n.ticket, tag := n.tag, phase := .held,
      token := none, countdown := pl.countdown, offset := pl.offset, landing := pl.n,
      overdue := none, instant := none, deferred := false }
  (s.setEntry d { s.entry d with pending := some p }).announceDest d

/-- The next take is promoted: placed afresh while the link is UP, otherwise CANCELLED (R61). -/
def State.promote (s : State) (d : Dest) : State :=
  match (s.entry d).next with
  | none => s
  | some n =>
    if s.link.state = .up then
      (s.setEntry d { s.entry d with next := none }).placeHeld d n (s.placement (s.entry d).group)
    else s.endNext d .cancelled

/-- A take leaves the token waiting list; the others keep their order. -/
def State.dropWaiting (s : State) (d : Dest) : State :=
  { s with link := { s.link with waiting := s.link.waiting.filter (· != d) } }

/-- A pending take ends with a result, in the four steps of R59. -/
def State.endPending (s : State) (d : Dest) (r : TakeResult) : State :=
  match (s.entry d).pending with
  | none => s
  | some p =>
    let s1 := s.setEntry d { s.entry d with pending := none }
    let s2 := if p.phase = .waiting then s1.dropWaiting d else s1
    let s3 := (s2.announceDest d).reportTake d p.ticket p.tag r p.deferred
    if r = .superseded then s3 else s3.promote d

/-! ### Tokens (R51, R53, R76 to R78) -/

/-- The lowest-numbered FREE token. -/
def State.freeToken? (s : State) : Option Token :=
  (select (fun t => t == TokenState.free) s.link.pool).head?

def State.setPending (s : State) (d : Dest) (p : Pending) : State :=
  s.setEntry d { s.entry d with pending := some p }

/-- A HELD take falls due and asks for a token: SENT with the lowest FREE one, its ROUTE_REQ queued, or
WAITING at the end of the list (R51, R76). -/
def State.requestToken (s : State) (d : Dest) : State :=
  match (s.entry d).pending with
  | none => s
  | some p =>
    match s.freeToken? with
    | some t =>
      ((s.setToken t .inUse).setPending d
        { p with phase := .sent, token := some t, instant := some s.now }).sendMatrix
          (.routeReq d p.source t)
    | none =>
      let s1 := s.setPending d { p with phase := .waiting }
      { s1 with link := { s1.link with waiting := s1.link.waiting ++ [d] } }

/-- A waiting take is granted a freed token and dispatched (R53). -/
def State.grantWaiting (s : State) (d : Dest) (t : Token) : State :=
  match (s.entry d).pending with
  | none => s
  | some p =>
    (s.setPending d
      { p with phase := .sent, token := some t, instant := some s.now, deferred := true,
               landing := s.grantedLanding (s.entry d).group }).sendMatrix (.routeReq d p.source t)

/-- A report frees a token: it goes to the oldest waiting take, or back to FREE (R77). -/
def State.freeToken (s : State) (t : Token) : State :=
  match s.link.waiting with
  | [] => s.setToken t .free
  | d :: ds =>
    let s1 := s.setToken t .inUse
    { s1 with link := { s1.link with waiting := ds } }.grantWaiting d t

/-- A HELD take is due: its dispatch countdown is 0 and the time since the last boundary of its group
has reached its dispatch offset (R51). -/
def State.isDue (s : State) (d : Dest) : Bool :=
  match (s.entry d).pending with
  | none => false
  | some p => p.phase == .held && p.countdown == 0 && decide (p.offset ≤ s.since (s.entry d).group)

/-- Those of some takes that are due ask the pool, in the order given. It serves the takes of one event:
that those of two events at one instant are not merged is the model's choice
(notes/assumptions/41.md). -/
def State.dispatchDue (s : State) (ds : List Dest) : State :=
  ds.foldl (fun s d => if s.isDue d then s.requestToken d else s) s

/-! ### The arrival of a take (R47) -/

/-- A take that passed the access check is placed on its destination: `true` when it is queued behind
a take in flight. `pl` is where it lands if it becomes the pending take. -/
def State.arrive (s : State) (d : Dest) (n : NextTake) (pl : Placement) : Bool × State :=
  match (s.entry d).pending with
  | none => (false, s.placeHeld d n pl)
  | some p =>
    if p.phase = .held ∨ p.phase = .waiting then
      (false, (s.endPending d .superseded).placeHeld d n pl)
    else
      let s1 := s.endNext d .superseded
      (true, s1.setEntry d { s1.entry d with next := some n })

/-- The TAKE order (R46). A take that has come due by the actual t is sent in the same event (R49). -/
def serveTake (o : Order) (s : State) : Answer :=
  match dest? (read16 o.payload 0), source? (read16 o.payload 2), panel? (read8 o.payload 4) with
  | some d, some x, some p =>
    match s.accessCheck p d (some x) with
    | some v => answer v s
    | none =>
      let g := (s.entry d).group
      let pl := s.placement g
      match s.arrive d ⟨x, p, o.ticket, none⟩ pl with
      | (true, s1) => ⟨s1, .scheduled, takePayload g none⟩
      | (false, s1) => ⟨s1.dispatchDue [d], .scheduled, takePayload g (some pl)⟩
  | _, _, _ => refuseRange s

/-! ### The scheduler's quantities (R63, R64) -/

def serveLeadSet (o : Order) (s : State) : Answer :=
  let q : Scheduler :=
    { lead := read16 o.payload 0, k := min (read8 o.payload 2) 7,
      guard := min (read16 o.payload 3) 16383, timeout := clamp 1 15 (read8 o.payload 5) }
  ⟨{ s with sched := q }, .done, leadPayload q⟩

def serveLeadRead (_ : Order) (s : State) : Answer := ⟨s, .done, leadPayload s.sched⟩

/-! ### A take at a boundary of its group (R50, R52 to R55) -/

/-- What a boundary hands to its followers (R28), and the switch point before it (R52). -/
structure Boundary where
  group     : Group
  frame     : FrameNo
  time      : Nat
  geometry  : Geometry
  applied   : Bool
  oldSwitch : Nat
deriving DecidableEq, Repr

/-- A SENT take whose landing frame has ended enters OVERDUE (R54). -/
def Pending.enterOverdue (p : Pending) (c : Nat) : Pending :=
  { p with phase := .overdue, overdue := some c }

/-- A HELD take whose dispatch frame has not just ended (R50, steps 2 and 3), and its offset under a
geometry applied at the boundary (R52). -/
def Pending.heldOn (p : Pending) (b : Boundary) : Pending :=
  { p with
    countdown := p.countdown - 1
    landing := p.landing - 1
    offset := if b.applied then
        newOffset p.offset b.oldSwitch b.geometry.switchTicks b.geometry.frameTicks
      else p.offset }

/-- The overdue countdown of a take has run out: suspect, the token STALE, SUSPECT marks, and the take
ends TIMED_OUT (R55, R78, R144). -/
def State.timeOut (s : State) (d : Dest) : State :=
  match (s.entry d).pending with
  | none => s
  | some p =>
    let s1 := s.setSuspect d true
    let s2 := match p.token with
      | none => s1
      | some t => s1.setToken t (.stale d)
    (s2.logSuspect d).endPending d .timedOut

/-- One take as the boundary reaches it, by its phase. A HELD take with dispatch countdown 0 is
dispatched at the boundary afterwards; here only its landing countdown moves (R50, step 1). -/
def State.treatTake (b : Boundary) (s : State) (d : Dest) : State :=
  match (s.entry d).pending with
  | none => s
  | some p =>
    match p.phase with
    | .held =>
      if p.countdown = 0 then s.setPending d { p with landing := p.landing - 1 }
      else s.setPending d (p.heldOn b)
    | .waiting => s.setPending d { p with landing := p.landing - 1 }
    | .sent =>
      if p.landing = 0 then s.setPending d (p.enterOverdue s.sched.timeout)
      else s.setPending d { p with landing := p.landing - 1 }
    | .overdue =>
      if p.overdue.getD 0 ≤ 1 then s.timeOut d
      else s.setPending d { p with overdue := some (p.overdue.getD 0 - 1) }

/-- The destinations of a group that hold a pending take (R29), in ascending order, which is the model's
choice (notes/assumptions/37.md). -/
def State.takesOf (s : State) (g : Group) : List Dest :=
  select (fun e : Entry => e.group == g && e.pending.isSome) s.map.entries

/-- A HELD take whose dispatch frame is the one that the boundary ends (R50, step 1). -/
def Entry.shortFrame (e : Entry) : Bool :=
  match e.pending with
  | none => false
  | some p => p.phase == .held && p.countdown == 0

/-- The take scheduler at a boundary: every take of the group is treated once (R50 to R55); then those
dispatched by R50, and those due at the boundary's instant, ask the pool in ascending order of
destination (R76, notes/assumptions/16.md). R29 and R55 give no order to the takes treated: that they
are treated in ascending order of destination, so that several that time out at one boundary report and
queue their tiles in that order, is the model's choice (notes/assumptions/37.md). That takes of another
group due at the same instant in another event ask with that event, and are not merged with these by
destination, is the model's choice as well (notes/assumptions/41.md). -/
def State.takesAtBoundary (s : State) (b : Boundary) : State :=
  let short := (s.takesOf b.group).filter fun d => (s.entry d).shortFrame
  let s1 := (s.takesOf b.group).foldl (State.treatTake b) s
  (s1.takesOf b.group).foldl
    (fun s d => if short.contains d || s.isDue d then s.requestToken d else s) s1

/-! ### Meanings -/

def execTake (τ : Nat) (s : State) : Host.Outcome State Fault Refusal :=
  .next (s.serve τ 0x10 serveTake)

def execLeadSet (τ : Nat) (s : State) : Host.Outcome State Fault Refusal :=
  .next (s.serve τ 0x22 serveLeadSet)

def execLeadRead (τ : Nat) (s : State) : Host.Outcome State Fault Refusal :=
  .next (s.serve τ 0x23 serveLeadRead)

/-- The takes of every group due at `τ` ask the pool, in ascending order of destination (R51, R76,
notes/assumptions/17.md). That takes which come due at the same instant in another event are not merged
with these is the model's choice (notes/assumptions/41.md). -/
def execTakeFallsDue (τ : Nat) (s : State) : Host.Outcome State Fault Refusal :=
  .next (s.event τ fun s => s.dispatchDue (select (fun e : Entry => e.pending.isSome) s.map.entries))

/-- A boundary reaches a SENT take whose landing countdown is already 0 (R54). The boundary steps do
the same for every take they reach. -/
def execOverdueEntry (d : Dest) (s : State) : Host.Outcome State Fault Refusal :=
  match (s.entry d).pending with
  | none => .next s
  | some p =>
    if p.phase = .sent ∧ p.landing = 0 then
      .next (s.event s.now fun s => s.setPending d (p.enterOverdue s.sched.timeout))
    else .next s

/-- A boundary brings the overdue countdown of a take to 0 (R55); a promoted take that is due at once
is sent in the same event (R49). The boundary steps do the same for every take they reach. -/
def execTakeTimedOut (d : Dest) (s : State) : Host.Outcome State Fault Refusal :=
  match (s.entry d).pending with
  | none => .next s
  | some p =>
    if p.phase = .overdue ∧ p.overdue = some 1 then
      .next (s.event s.now fun s => (s.timeOut d).dispatchDue [d])
    else .next s

end Sys2Proof.Machine
end

