-- ==== Sys2Proof/Machine/Groups.lean ====
section
/-! DEFINITION. Reference groups (chapter 2): boundaries (R28, R34), the kinds of boundary (R35 to
R39), programming a geometry (R31 to R33) and reading a group (R43). -/

namespace Sys2Proof.Machine

/-- A group record at the boundary that begins a frame: the time is recorded, the frame count advances
(but is 0 at an enabling boundary), and a staged geometry becomes active with P its F (R28, R34).
`state` and `p` are what the kind of the boundary makes of the state and of P. -/
def GroupRec.open (r : GroupRec) (time : Nat) (state : RefState) (p : Nat) (enabling : Bool) : GroupRec where
  state  := state
  active := match r.staged with
    | some q => some q
    | none => r.active
  staged := none
  period := match r.staged with
    | some q => q.frameTicks
    | none => p
  frame  := if enabling then 0 else r.frame + 1
  last   := some time

/-- The three followers of a boundary, in the order the step names (R29). -/
def State.handOn (s : State) (b : Boundary) (order : FollowerOrder) : State :=
  let takes := fun s : State => s.takesAtBoundary b
  let walls := fun s : State => s.wallsAtBoundary b.group b.frame
  let recorders := fun s : State => s.recordersAtBoundary b.group
  match order with
  | .takesWallsRecorders => recorders (walls (takes s))
  | .takesRecordersWalls => walls (recorders (takes s))
  | .wallsTakesRecorders => recorders (takes (walls s))
  | .wallsRecordersTakes => takes (recorders (walls s))
  | .recordersTakesWalls => walls (takes (recorders s))
  | .recordersWallsTakes => takes (walls (recorders s))

/-- REF_STATE is raised for a transition (R42). -/
def State.raiseRef (s : State) (g : Group) (k : Option RefKind) : State :=
  match k with
  | none => s
  | some k => s.raise (refNotice g k (s.grp g))

/-- A boundary of a group: its record, the notice of its kind if it has one, and its followers, in one
event (R28). A group with no geometry takes no boundary (R26). -/
def State.boundary (s : State) (g : Group) (time : Nat) (state : RefState) (p : Nat) (enabling : Bool)
    (k : Option RefKind) (order : FollowerOrder) : State :=
  let r := s.grp g
  let r1 := r.open time state p enabling
  match r1.active with
  | none => s
  | some q =>
    let b : Boundary :=
      { group := g, frame := r1.frame, time := time, geometry := q, applied := r.staged.isSome,
        oldSwitch := s.switchTicks g }
    ((s.setGrp g r1).raiseRef g k).handOn b order

/-! ### The kinds of boundary (R35 to R39) -/

/-- E, the expected boundary of a group: the last boundary time plus P (R35). -/
def GroupRec.expected (r : GroupRec) : Nat := r.last.getD 0 + r.period

/-- T of the active geometry. -/
def GroupRec.tolerance (r : GroupRec) : Nat :=
  match r.active with
  | none => 0
  | some q => q.tol

/-- F of the active geometry. -/
def GroupRec.frameTicks (r : GroupRec) : Nat :=
  match r.active with
  | none => 0
  | some q => q.frameTicks

/-- P after an on-time edge at `τ` (R35, R40). -/
def GroupRec.filtered (r : GroupRec) (τ : Nat) : Nat :=
  match r.active with
  | none => r.period
  | some q => periodFilter q r.period (τ - r.last.getD 0)

/-- No edge by E + T in LOCKED (R37). -/
def State.expireTolerance (s : State) (g : Group) (order : FollowerOrder) : State :=
  let r := s.grp g
  (s.clock (r.expected + r.tolerance)).boundary g (r.expected + r.tolerance) .freewheel r.period false
    (some .loss) order

/-- No edge by E in FREEWHEEL (R38). -/
def State.freewheel (s : State) (g : Group) (order : FollowerOrder) : State :=
  let r := s.grp g
  (s.clock r.expected).boundary g r.expected .freewheel r.period false none order

/-- An edge in FREEWHEEL (R39): LOCKED, with a boundary at the edge when t is above T. -/
def State.recapture (s : State) (g : Group) (order : FollowerOrder) : State :=
  let r := s.grp g
  if r.tolerance < s.since g then s.boundary g s.now .locked r.period false (some .acquire) order
  else (s.setGrp g { r with state := .locked }).raiseRef g (some .acquire)

/-- An edge in LOCKED, not later than E + T: early (R36) or on time (R35). -/
def State.edgeLocked (s : State) (g : Group) (order : FollowerOrder) : State :=
  let r := s.grp g
  if s.now + r.tolerance < r.expected then
    s.boundary g s.now .locked r.frameTicks false (some .jump) order
  else s.boundary g s.now .locked (r.filtered s.now) false none order

/-- A reference edge, by the state of its group; a DISABLED group ignores it (R41). -/
def State.edge (s : State) (g : Group) (order : FollowerOrder) : State :=
  match (s.grp g).state with
  | .disabled => s
  | .locked => s.edgeLocked g order
  | .freewheel => s.recapture g order

/-- A LOCKED group whose E + T lies before `τ`: the tolerance has run out, in an event of its own, by the
time an edge arrives at `τ` (R37; notes/assumptions/9.md). -/
def State.expireBefore (s : State) (τ : Nat) (g : Group) (order : FollowerOrder) : State :=
  let r := s.grp g
  if r.state = .locked ∧ r.expected + r.tolerance < max s.now τ then
    s.event s.now fun s => s.expireTolerance g order
  else s

/-! ### Programming and reading (R31 to R33, R43) -/

/-- The geometry an order gives, T and k_ref clamped; refused when H, L or s is out of range (R31). -/
def geometry? (h l sw t k : Nat) : Option Geometry :=
  if 100 ≤ h ∧ h ≤ 8191 ∧ 20 ≤ l ∧ l ≤ 4095 ∧ sw ≤ l - 1 then
    some { h := h, l := l, s := sw, tol := clamp 1 (l * h / 4) t, kref := clamp 0 7 k }
  else none

/-- A DISABLED group is enabled: FREEWHEEL, P = F, an enabling boundary now with frame count 0, and
REF_STATE START (R32). -/
def State.enableGroup (s : State) (g : Group) (q : Geometry) (order : FollowerOrder) : State :=
  (s.setGrp g { s.grp g with active := some q, staged := none }).boundary g s.now .freewheel
    q.frameTicks true (some .start) order

def serveRefSet (order : FollowerOrder) (o : Order) (s : State) : Answer :=
  match group? (read8 o.payload 0),
      geometry? (read16 o.payload 1) (read16 o.payload 3) (read16 o.payload 5) (read32 o.payload 7)
        (read8 o.payload 11) with
  | some g, some q =>
    if (s.grp g).state = .disabled then
      ⟨s.enableGroup g q order, .done,
        be8 (groupCode g) ++ geometryRecord (some q) ++ flagByte false⟩
    else
      ⟨s.setGrp g { s.grp g with staged := some q }, .done,
        be8 (groupCode g) ++ geometryRecord (some q) ++ flagByte true⟩
  | _, _ => refuseRange s

def serveRefRead (o : Order) (s : State) : Answer :=
  match group? (read8 o.payload 0) with
  | none => refuseRange s
  | some g => ⟨s, .done, s.refPayload g⟩

/-! ### Meanings -/

def execRefSet (τ : Nat) (order : FollowerOrder) (s : State) : Host.Outcome State Fault Refusal :=
  .next (s.serve τ 0x20 (serveRefSet order))

def execRefRead (τ : Nat) (s : State) : Host.Outcome State Fault Refusal :=
  .next (s.serve τ 0x21 serveRefRead)

/-- An edge arrives at `τ` (R41). One that arrives after E + T finds the group in the FREEWHEEL that the
expiry has brought (R37, R39). -/
def execRefEdge (τ : Nat) (g : Group) (order : FollowerOrder) (s : State) :
    Host.Outcome State Fault Refusal :=
  .next ((s.expireBefore τ g order).event τ fun s => s.edge g order)

/-- The instant is E + T; it can come only in LOCKED (R37). -/
def execToleranceExpiry (g : Group) (order : FollowerOrder) (s : State) :
    Host.Outcome State Fault Refusal :=
  if (s.grp g).state = .locked then .next (s.event s.now fun s => s.expireTolerance g order)
  else .next s

/-- The instant is E; it can come only in FREEWHEEL (R38). -/
def execFreewheelBoundary (g : Group) (order : FollowerOrder) (s : State) :
    Host.Outcome State Fault Refusal :=
  if (s.grp g).state = .freewheel then .next (s.event s.now fun s => s.freewheel g order)
  else .next s

end Sys2Proof.Machine
end

