-- ==== Sys2Proof/Machine/MatrixLink.lean ====
section
/-! DEFINITION. The matrix link (chapter 4): carrier and survey (R66 to R71), the departure from UP
(R72, R62), the LINK block reset (R73), route reports in UP (R79 to R84), the matrix receiver (R68) and
the unmatched-report count (R86). -/

namespace Sys2Proof.Machine

/-- The unmatched-report count increases by one, and stays at 65535 (R86). -/
def State.unmatch (s : State) : State :=
  { s with link := { s.link with unmatched := min (s.link.unmatched + 1) Config.countTop } }

/-- The line state changes, and LINK_STATE is raised with the declared counts as they stand (R74). -/
def State.setLink (s : State) (v : LinkState) (cause : LinkCause) : State :=
  { s with link := { s.link with state := v } }.raise
    (linkNotice v s.link.state cause s.map.dests s.map.sources)

/-- A survey starts: SURVEYING, a SURVEY_REQ in the transmit queue, LINK_STATE (R69). -/
def State.startSurvey (s : State) : State :=
  let s1 := { s with link := { s.link with state := .surveying } }.sendMatrix .surveyReq
  s1.raise (linkNotice .surveying s.link.state .carrierGained s.map.dests s.map.sources)

/-! ### The departure from UP (R72, R62) -/

/-- The takes of a destination end CANCELLED, the pending take before the next take (R62). -/
def State.cancelTakes (s : State) (d : Dest) : State := (s.endPending d .cancelled).endNext d .cancelled

/-- Every pending and next take of the map ends CANCELLED, in ascending order of destination
(notes/assumptions/10.md). -/
def State.cancelAll (s : State) : State :=
  (select (fun e : Entry => e.pending.isSome || e.next.isSome) s.map.entries).foldl State.cancelTakes s

/-- Every token becomes FREE and the waiting list is emptied, with no grant; the transmit queue is
emptied (R72, steps 4 and 5). -/
def State.clearPool (s : State) : State :=
  { s with link := { s.link with
      pool := Vector.replicate 255 .free, waiting := [], queue := [] } }

/-- The departure from UP, in the five steps of R72. -/
def State.departUp (s : State) (cause : LinkCause) : State :=
  ((s.setLink .down cause).cancelAll).clearPool

/-- SURVEYING is left for DOWN: the transmit queue is emptied and LINK_STATE raised (R72). -/
def State.leaveSurvey (s : State) (cause : LinkCause) : State :=
  { s with link := { s.link with queue := [] } }.setLink .down cause

/-- The link goes to DOWN from whatever state it is in. -/
def State.linkDown (s : State) (cause : LinkCause) : State :=
  match s.link.state with
  | .down => s
  | .surveying => s.leaveSurvey cause
  | .up => s.departUp cause

/-- The LINK block reset, in the three steps of R73. A frame on the line is sent to its end, and one
under reception is taken to its end. -/
def State.resetLink (s : State) : State :=
  let s1 := s.linkDown .blockReset
  let s2 := { s1 with link := { s1.link with unmatched := 0 } }
  if s2.pins.carrier then s2.startSurvey else s2

/-! ### Reports (R70, R79 to R84) -/

/-- A route report: the fields of the message (R174). -/
structure Report where
  dest   : Nat
  source : Nat
  token  : Byte
  held   : Nat
  survey : Bool
deriving DecidableEq, Repr

/-- A report applied in a survey: cause SURVEY, suspect cleared; discarded when its destination or
source names nothing (R70). -/
def State.surveyReport (s : State) (r : Report) : State :=
  match dest? r.dest, source? r.source with
  | some d, some x => (s.writeSource d (some x) .survey).setSuspect d false
  | _, _ => s.unmatch

/-- The class of a report in UP (R80). -/
inductive ReportClass where
  | matched (t : Token)
  | stray (t : Token)
  | foreign
  | unknown
deriving DecidableEq, Repr

/-- Whether the pending take of a destination holds a token. -/
def State.holds (s : State) (d : Dest) (t : Token) : Bool :=
  match (s.entry d).pending with
  | none => false
  | some p => p.token == some t

/-- The classification of a report that passed the range test (R80). `unknown` is a foreign report
that is counted as unmatched. -/
def State.classify (s : State) (d : Dest) (token : Byte) (survey : Bool) : ReportClass :=
  if survey then .foreign
  else
    match token? token.toNat with
    | none => .foreign
    | some t =>
      match s.token t with
      | .inUse => if s.holds d t then .matched t else .unknown
      | .stale e => if e = d then .stray t else .unknown
      | .free => .unknown

/-- A foreign or stray report is applied: cause FOREIGN, suspect cleared, and a FOREIGN notice when the
source changed (R83, R84). -/
def State.applyForeign (s : State) (d : Dest) (x : Source) (token : Byte) (stray : Bool) : State :=
  let old := (s.entry d).source
  let s1 := (s.writeSource d (some x) .foreign).setSuspect d false
  if old = some x then s1
  else s1.raise (foreignNotice d old (some x) token stray (s.entry d).group (s.destStamp d))

/-- The result of a matched report (R81). -/
def matchedResult (p : Pending) (x : Source) : TakeResult :=
  if p.source ≠ x then .overridden
  else if p.phase = .overdue then .late
  else .confirmed

/-- Λ is filtered with the round trip less the held ticks; 0 when they exceed it (R57). -/
def State.measure (s : State) (p : Pending) (held : Nat) : State :=
  let m := (s.now - p.instant.getD s.now) - held
  { s with sched := { s.sched with lead := leadFilter s.sched.k s.sched.lead m } }

/-- A matched report, in the four steps of R58. A promoted take that is due at once is sent in the same
event (R49, R61). -/
def State.applyMatched (s : State) (d : Dest) (x : Source) (t : Token) (held : Nat) : State :=
  match (s.entry d).pending with
  | none => s
  | some p =>
    let s1 := s.freeToken t
    let s2 := s1.measure p held
    let s3 := (s2.writeSource d (some x) .cut).setSuspect d false
    (s3.endPending d (matchedResult p x)).dispatchDue [d]

/-- A route report taken in UP (R79, R80). -/
def State.upReport (s : State) (r : Report) : State :=
  match dest? r.dest, source? r.source with
  | some d, some x =>
    if !s.present d then s.unmatch
    else
      match s.classify d r.token r.survey with
      | .matched t => s.applyMatched d x t r.held
      | .stray t => (s.freeToken t).applyForeign d x r.token true
      | .foreign => s.applyForeign d x r.token false
      | .unknown => s.unmatch.applyForeign d x r.token false
  | _, _ => s.unmatch

/-- A ROUTE_REPORT by the line state (R68); in DOWN nothing is taken from the line (R66). -/
def State.report (s : State) (r : Report) : State :=
  match s.link.state with
  | .down => s
  | .surveying => s.surveyReport r
  | .up => s.upReport r

/-! ### The end of a survey (R71) -/

/-- The entries at or above the declared destination count whose source is not NONE take NONE with
cause LOST, all in the one event of SURVEY_END (R71, step 2). That the walls and tally are handed them in
ascending order of destination is the model's choice: R8 and R71 give no order (notes/assumptions/35.md).
The SPLITs of the event are issued in ascending order of channel (R137). -/
def State.clearUndeclared (s : State) : State :=
  let gone := (select (fun e : Entry => e.source.isSome) s.map.entries).filter fun d => !s.present d
  (gone.foldl State.clearSource s).splitLost s

/-- A SURVEY_END by the line state (R68, R71). -/
def State.endSurvey (s : State) (dests sources : Nat) : State :=
  match s.link.state with
  | .down => s
  | .up => s.unmatch
  | .surveying =>
    let s1 := { s with map := { s.map with
        dests := clamp 1 512 dests, sources := clamp 1 1024 sources } }
    s1.clearUndeclared.setLink .up .surveyEnd

/-! ### The matrix receiver (R68, R174) -/

/-- A body that passed its check, by its code and length. -/
def State.matrixBody (s : State) (body : List Byte) : State :=
  if byteAt body 0 = 0x81 ∧ body.length = 9 then
    s.report ⟨read16 body 2, read16 body 4, byteAt body 1, read16 body 6, readFlag body 8⟩
  else if byteAt body 0 = 0x82 ∧ body.length = 6 then s.endSurvey (read16 body 2) (read16 body 4)
  else s.unmatch

/-- One byte of the matrix line while the link is not DOWN. Each frame is an event of its own, and the
MARKS_HIGH that its marks owe are raised before the next frame is taken (R68, R146). -/
def State.matrixByte (s : State) (b : Byte) : State :=
  let r := receiverTake s.link.receiver b
  let s1 := { s with link := { s.link with receiver := r.1 } }
  match r.2 with
  | .nothing => s1
  | .bad => s1.unmatch
  | .body bytes => (s1.matrixBody bytes).flushHigh

/-- A frame under reception is abandoned after a gap of more than 27,000 ticks (R68). -/
def State.matrixGap (s : State) : State :=
  { s with link := { s.link with receiver := .hunting } }.unmatch

/-- At `now`, more than 27,000 ticks have passed since the last byte of a frame under reception. -/
def State.matrixStale (s : State) (now : Nat) : Bool :=
  s.link.receiver != .hunting && decide (s.link.lastByte + Config.gapTicks < now)

/-- What arrives after such a gap finds the frame under reception abandoned (R68); in DOWN the bytes are
discarded as they arrive (R66). -/
def State.endMatrixGap (s : State) : State :=
  if s.link.state ≠ .down ∧ s.matrixStale s.now then s.matrixGap else s

/-- Bytes of the matrix line; in DOWN they are discarded as they arrive (R66). A gap before them ends
the frame under reception. -/
def State.matrixBytes (s : State) (bytes : List Byte) : State :=
  if s.link.state = .down then s
  else
    let s1 := s.endMatrixGap
    bytes.foldl State.matrixByte { s1 with link := { s1.link with lastByte := s1.now } }

/-- A whole message of the router arrives at `τ` and is handled by `act`. It cannot arrive whole while
another frame is being taken, unless that frame has been abandoned for a gap (R68). -/
def State.wholeMessage (s : State) (τ : Nat) (act : State → State) : State :=
  if s.link.receiver = .hunting ∨ s.matrixStale (max s.now τ) then
    s.event τ fun s => act s.endMatrixGap
  else s

/-- The carrier is lost: the link goes to DOWN, and the frames under way on the line, in either
direction, are abandoned (R66, R72). -/
def State.loseCarrier (s : State) : State :=
  let s1 := { s with link := { s.link with receiver := .hunting, line := none } }
  s1.linkDown .carrierLost

/-! ### Meanings -/

/-- A change of the carrier input from absent to present (R66). While the reset pin is held the input
changes and the link does not (R65). -/
def execCarrierGain (τ : Nat) (s : State) : Host.Outcome State Fault Refusal :=
  if s.pins.carrier then .next s
  else
    let s1 := { s with pins := { s.pins with carrier := true } }
    .next (s1.event τ fun s => if s.link.state = .down then s.startSurvey else s)

/-- A change of the carrier input from present to absent (R66). A frame on the matrix line is abandoned
also while the reset pin is held. -/
def execCarrierLoss (τ : Nat) (s : State) : Host.Outcome State Fault Refusal :=
  if s.pins.carrier then
    let s1 := { s with pins := { s.pins with carrier := false }, link := { s.link with line := none } }
    .next (s1.event τ State.loseCarrier)
  else .next s

/-- A whole ROUTE_REPORT has arrived (R68). -/
def execRouteReport (τ : Nat) (dest source : Word16) (token : Byte) (held : Word16) (survey : Byte)
    (s : State) : Host.Outcome State Fault Refusal :=
  .next (s.wholeMessage τ fun s =>
    s.report ⟨dest.toNat, source.toNat, token, held.toNat, survey != 0⟩)

/-- A whole SURVEY_END has arrived (R68). -/
def execSurveyEnd (τ : Nat) (dests sources : Word16) (s : State) :
    Host.Outcome State Fault Refusal :=
  .next (s.wholeMessage τ fun s => s.endSurvey dests.toNat sources.toNat)

/-- Bytes arrive on the matrix line and are judged as the receiver judges them (R68): a frame that
fails is counted; a frame that is whole and good is handled as its message. -/
def execMatrixBadFrame (τ : Nat) (bytes : List Byte) (s : State) : Host.Outcome State Fault Refusal :=
  .next (s.event τ fun s => s.matrixBytes bytes)

/-- More than 27,000 ticks have passed since the last byte of a frame under reception (R68). -/
def execMatrixFrameGapTimeout (s : State) : Host.Outcome State Fault Refusal :=
  if s.link.receiver = .hunting ∨ s.link.state = .down then .next s
  else .next (s.event (s.link.lastByte + Config.gapTicks + 1) State.matrixGap)

/-- A message finishes and the next in the transmit queue begins (R67). While the reset pin is held the
queue is empty, and nothing follows the frame that was under way (R65). -/
def execMatrixTxComplete (τ : Nat) (s : State) : Host.Outcome State Fault Refusal :=
  if s.link.line.isNone then .next s
  else
    let s1 := if s.pins.reset then s else s.clock τ
    .next { s1 with link := Link.begin { s1.link with line := none } }

end Sys2Proof.Machine
end

