-- ==== Sys2Proof/Machine/SalvoStore.lean ====
section
/-! DEFINITION. Salvos (chapter 5, first part): the orders that build a slot (R88 to R92), firing (R93,
R94) and the SALVOS block reset (R98). -/

namespace Sys2Proof.Machine

/-! ### Building (R88 to R92) -/

def openPayload (q : Slot) : List Byte :=
  be8 (groupCode q.group) ++ be8 q.owner.1 ++ be8 q.entries.length

def serveSalvoOpen (o : Order) (s : State) : Answer :=
  match slot? (read8 o.payload 0), group? (read8 o.payload 1), panel? (read8 o.payload 2) with
  | some k, some g, some p =>
    let q := s.slot k
    match q.state with
    | .empty =>
      let q1 : Slot := { q with state := .opened, group := g, owner := p, entries := [] }
      ⟨s.setSlot k q1, .done, openPayload q1⟩
    | .armed => ⟨s.setSlot k { q with state := .opened }, .done, openPayload q⟩
    | .opened => answer .salvoState s
    | .firing => answer .salvoState s
  | _, _, _ => refuseRange s

/-- The place of a destination in an entry list, counted from 0. -/
def entryPlace (l : List (Dest × Source)) (d : Dest) : Option Nat := l.findIdx? (·.1 == d)

/-- The source of a destination that stands in the list is replaced in its place. -/
def replaceEntry (l : List (Dest × Source)) (d : Dest) (x : Source) : List (Dest × Source) :=
  l.map fun p => if p.1 == d then (d, x) else p

def serveSalvoPut (o : Order) (s : State) : Answer :=
  match slot? (read8 o.payload 0), dest? (read16 o.payload 1), source? (read16 o.payload 3) with
  | some k, some d, some x =>
    let q := s.slot k
    if q.state ≠ .opened then answer .salvoState s
    else if (s.entry d).group ≠ q.group then answer .groupMismatch s
    else
      match entryPlace q.entries d with
      | some i =>
        ⟨s.setSlot k { q with entries := replaceEntry q.entries d x }, .done,
          be8 i ++ be8 q.entries.length⟩
      | none =>
        if Config.salvoRoom ≤ q.entries.length then answer .salvoFull s
        else
          ⟨s.setSlot k { q with entries := q.entries ++ [(d, x)] }, .done,
            be8 q.entries.length ++ be8 (q.entries.length + 1)⟩
  | _, _, _ => refuseRange s

def serveSalvoDrop (o : Order) (s : State) : Answer :=
  match slot? (read8 o.payload 0), dest? (read16 o.payload 1) with
  | some k, some d =>
    let q := s.slot k
    if q.state ≠ .opened then answer .salvoState s
    else if (entryPlace q.entries d).isNone then answer .notFound s
    else
      let l := q.entries.filter fun p => p.1 != d
      ⟨s.setSlot k { q with entries := l }, .done, be8 l.length⟩
  | _, _ => refuseRange s

def serveSalvoArm (o : Order) (s : State) : Answer :=
  match slot? (read8 o.payload 0) with
  | none => refuseRange s
  | some k =>
    let q := s.slot k
    if q.state = .opened ∧ q.entries ≠ [] then
      ⟨s.setSlot k { q with state := .armed }, .done, be8 q.entries.length⟩
    else answer .salvoState s

def serveSalvoClear (o : Order) (s : State) : Answer :=
  match slot? (read8 o.payload 0) with
  | none => refuseRange s
  | some k =>
    match (s.slot k).state with
    | .empty => answer .done s
    | .firing => answer .salvoState s
    | .opened => answer .done (s.setSlot k Slot.reset)
    | .armed => answer .done (s.setSlot k Slot.reset)

/-! ### Firing (R93, R94) -/

/-- The account of a fire while it takes its entries: the counts, the first refusal, and the
destinations of the takes placed as pending takes. -/
structure FireAccount where
  accepted : Nat
  placed   : Nat
  queued   : Nat
  refused  : Nat
  refusal  : Option Verdict
  dests    : List Dest
deriving DecidableEq, Repr

def FireAccount.start : FireAccount := ⟨0, 0, 0, 0, none, []⟩

/-- One entry of a fire: access-checked with the owner panel, then refused, placed or queued (R94). -/
def fireEntry (k : SlotNo) (owner : PanelNo) (pl : Placement) (acc : FireAccount × State)
    (e : Dest × Source) : FireAccount × State :=
  match acc with
  | (a, s) =>
    match s.accessCheck owner e.1 (some e.2) with
    | some v =>
      ({ a with refused := a.refused + 1, refusal := some (a.refusal.getD v) }, s)
    | none =>
      match s.arrive e.1 ⟨e.2, owner, 0, some k⟩ pl with
      | (true, s1) => ({ a with accepted := a.accepted + 1, queued := a.queued + 1 }, s1)
      | (false, s1) =>
        ({ a with accepted := a.accepted + 1, placed := a.placed + 1, dests := a.dests ++ [e.1] }, s1)

/-- The firing record a fire writes (R95). -/
def firingOf (g : Group) (pl : Placement) (a : FireAccount) : Firing where
  group      := g
  landing    := pl.landing
  n          := pl.n
  accepted   := a.accepted
  placed     := a.placed
  queued     := a.queued
  refused    := a.refused
  refusal    := a.refusal
  confirmed  := 0
  late       := 0
  overridden := 0
  timedOut   := 0
  superseded := 0
  cancelled  := 0
  deferred   := 0

/-- What a fire request comes to: its outcome, and the account of a fire that reached its entries. -/
structure FireEnd where
  verdict : Verdict
  reached : Option Firing
  state   : State

/-- The slot at the end of a fire: FIRING with the accepted takes outstanding, or still ARMED; the
firing record is replaced (R94). -/
def Slot.fired (q : Slot) (f : Firing) : Slot :=
  { q with
    state := if 0 < f.accepted then .firing else .armed
    outstanding := f.accepted
    firing := some f }

/-- The outcome of a fire that reached its entries (R94). -/
def FireAccount.verdict (a : FireAccount) : Verdict :=
  if 0 < a.accepted then .scheduled else a.refusal.getD .salvoState

/-- A fire request for a slot (R93, R94). The takes placed that are due by the actual t are sent after
the last entry has been taken, in ascending order of destination. -/
def State.fire (s : State) (k : SlotNo) : FireEnd :=
  let q := s.slot k
  if q.state ≠ .armed then ⟨.salvoState, none, s⟩
  else if s.link.state ≠ .up then ⟨.matrixDown, none, s⟩
  else if (s.grp q.group).state = .disabled then ⟨.noReference, none, s⟩
  else
    let pl := s.placement q.group
    let (a, s1) := q.entries.foldl (fireEntry k q.owner pl) (FireAccount.start, s)
    let f := firingOf q.group pl a
    let s2 := s1.setSlot k ((s1.slot k).fired f)
    ⟨a.verdict, some f, s2.dispatchDue (a.dests.insertionSort (fun x y => x.1 ≤ y.1))⟩

def serveSalvoFire (o : Order) (s : State) : Answer :=
  match slot? (read8 o.payload 0) with
  | none => refuseRange s
  | some k =>
    let r := s.fire k
    ⟨r.state, r.verdict, match r.reached with
      | some f => firePayload f
      | none => []⟩

def serveSalvoRead (o : Order) (s : State) : Answer :=
  match slot? (read8 o.payload 0) with
  | none => refuseRange s
  | some k => ⟨s, .done, salvoPayload (s.slot k)⟩

/-! ### The SALVOS block reset (R98) -/

/-- An entry whose pending and next takes lose their salvo tag; the takes run on. -/
def Entry.untagged (e : Entry) : Entry :=
  { e with
    pending := e.pending.map fun p => { p with tag := none }
    next := e.next.map fun n => { n with tag := none } }

/-- Every slot takes its reset values, and every tag in the map is removed. -/
def State.resetSalvos (s : State) : State :=
  { s with
    salvos := Vector.replicate 16 Slot.reset
    map := { s.map with entries := s.map.entries.map Entry.untagged } }

/-! ### Meanings -/

def execSalvoOpen (τ : Nat) (s : State) : Host.Outcome State Fault Refusal :=
  .next (s.serve τ 0x30 serveSalvoOpen)

def execSalvoPut (τ : Nat) (s : State) : Host.Outcome State Fault Refusal :=
  .next (s.serve τ 0x31 serveSalvoPut)

def execSalvoDrop (τ : Nat) (s : State) : Host.Outcome State Fault Refusal :=
  .next (s.serve τ 0x32 serveSalvoDrop)

def execSalvoArm (τ : Nat) (s : State) : Host.Outcome State Fault Refusal :=
  .next (s.serve τ 0x33 serveSalvoArm)

def execSalvoClear (τ : Nat) (s : State) : Host.Outcome State Fault Refusal :=
  .next (s.serve τ 0x34 serveSalvoClear)

def execSalvoFire (τ : Nat) (s : State) : Host.Outcome State Fault Refusal :=
  .next (s.serve τ 0x35 serveSalvoFire)

def execSalvoRead (τ : Nat) (s : State) : Host.Outcome State Fault Refusal :=
  .next (s.serve τ 0x36 serveSalvoRead)

end Sys2Proof.Machine
end

