-- ==== Sys2Proof/Machine/TriggerInputs.lean ====
section
/-! DEFINITION. Trigger inputs (chapter 5, second part): qualification (R99, R100), what a qualified
edge does (R101, R102), its notice (R103), and the trigger orders (R104, R105). -/

namespace Sys2Proof.Machine

/-! ### What a qualified edge does (R101, R102) -/

/-- The action of an edge, its outcome, the account of a fire that reached its entries, and the state
it leaves. -/
structure EdgeEnd where
  action  : GpiAction
  verdict : Verdict
  reached : Option Firing
  state   : State

/-- An edge that makes no request (R103). -/
def edgeIdle (s : State) : EdgeEnd := ⟨.nothing, .done, none, s⟩

/-- A fire request for the target slot, served as SALVO_FIRE would be (R101). -/
def edgeFire (k : SlotNo) (s : State) : EdgeEnd :=
  let r := s.fire k
  ⟨.fire, r.verdict, r.reached, r.state⟩

/-- A start request, served as REC_START would be (R102). -/
def edgeStart (c : ChannelNo) (s : State) : EdgeEnd :=
  let r := s.recStart c .trigger
  ⟨.start, r.1, none, r.2⟩

/-- A stop request, served as REC_STOP would be (R102). -/
def edgeStop (c : ChannelNo) (s : State) : EdgeEnd := ⟨.stop, .done, none, s.recStop c .trigger⟩

/-- What a qualified edge does, by the input's mode and target. -/
def State.edgeAct (s : State) (r : Trigger) (rising : Bool) : EdgeEnd :=
  match r.mode, r.target, rising with
  | .fire, some k, true => edgeFire k s
  | .recLevel, some c, true => edgeStart c s
  | .recLevel, some c, false => edgeStop c s
  | .recPulse, some c, true => if (s.chan c).state = .idle then edgeStart c s else edgeStop c s
  | _, _, _ => edgeIdle s

/-- A qualified edge: the qualified level takes the raw level, the interval becomes absent, the input
acts, and GPI_EDGE is raised after the edge has acted when the mode is not NONE and the input's notice
enable is on (R100, R103). -/
def State.qualify (s : State) (i : InputNo) : State :=
  let r := s.trig i
  let r1 : Trigger := { r with level := r.raw, interval := none }
  let e := (s.setTrig i r1).edgeAct r1 r.raw
  let s2 := e.state.flushHigh
  if r.mode ≠ .unused ∧ r.enable then
    s2.raise (gpiNotice i r.raw r1 e.action e.verdict e.reached)
  else s2

/-! ### Qualification (R100) -/

/-- A qualification interval starts now, with the input's current Q. With Q = 0 it expires in the same
event. -/
def State.startInterval (s : State) (i : InputNo) : State :=
  let r := s.trig i
  let s1 := s.setTrig i { r with interval := some ⟨s.now, r.q.toNat⟩ }
  if r.q.toNat = 0 then s1.qualify i else s1

/-- A change of the raw level starts an interval, or abandons the one under way (R100). That a change
away from the qualified level with an interval under way leaves that interval, in a state that no run
reaches, is the model's choice (notes/assumptions/43.md). -/
def State.rawChange (s : State) (i : InputNo) (level : Bool) : State :=
  let s1 := s.setTrig i { s.trig i with raw := level }
  let r := s1.trig i
  if level = r.level then s1.setTrig i { r with interval := none }
  else if r.interval.isNone then s1.startInterval i
  else s1

/-! ### The orders (R104, R105) -/

/-- The target TRIG_SET gives: a slot or a channel, 0 to 15, in the modes that have one; none in the
others. `none` is a target out of range. -/
def target? (m : TrigMode) (v : Nat) : Option (Option (Fin 16)) :=
  match m with
  | .fire => (slot? v).map some
  | .recLevel => (channel? v).map some
  | .recPulse => (channel? v).map some
  | .unused => some none
  | .noticeOnly => some none

def serveTrigSet (o : Order) (s : State) : Answer :=
  match input? (read8 o.payload 0), trigMode? (read8 o.payload 1) with
  | some i, some m =>
    match target? m (read8 o.payload 2) with
    | none => refuseRange s
    | some t =>
      let r : Trigger :=
        { s.trig i with
          mode := m, target := t, q := byteAt o.payload 3, enable := readFlag o.payload 4 }
      ⟨s.setTrig i r, .done, trigPayload i r⟩
  | _, _ => refuseRange s

def serveTrigRead (o : Order) (s : State) : Answer :=
  match input? (read8 o.payload 0) with
  | none => refuseRange s
  | some i => ⟨s, .done, trigReadPayload i (s.trig i)⟩

/-! ### Meanings -/

def execTrigSet (τ : Nat) (s : State) : Host.Outcome State Fault Refusal :=
  .next (s.serve τ 0x38 serveTrigSet)

def execTrigRead (τ : Nat) (s : State) : Host.Outcome State Fault Refusal :=
  .next (s.serve τ 0x39 serveTrigRead)

/-- The raw level of an input changes to `level` (R100); a level it already has is no change. While the
reset pin is held only the pin's level moves (R165, notes/assumptions/33.md). -/
def execTriggerRawChange (τ : Nat) (i : InputNo) (level : Bool) (s : State) :
    Host.Outcome State Fault Refusal :=
  if (s.trig i).raw = level then .next s
  else if s.pins.reset then .next (s.setTrig i { s.trig i with raw := level })
  else .next (s.event τ fun s => s.rawChange i level)

/-- The interval of an input expires, Q × 27,000 ticks after its start (R100). -/
def execQualifiedEdge (i : InputNo) (s : State) : Host.Outcome State Fault Refusal :=
  match (s.trig i).interval with
  | none => .next s
  | some v => .next (s.event (v.start + v.q * Config.msTicks) fun s => s.qualify i)

end Sys2Proof.Machine
end

