-- ==== Sys2Proof/Machine/ControlLine.lean ====
section
/-! DEFINITION. The control line and the resets (chapter 9): receiving frames (R153 to R156), the
transmitter (R160), NOTICE_SET and STATUS (R161, R162), the block resets (R163), DEVICE_RESET (R164)
and the reset pin (R165). -/

namespace Sys2Proof.Machine

/-! ### Receiving (R153 to R156) -/

/-- The receiver answers a frame itself, when the reply list has room; without it the frame is
discarded and counted (R156). -/
def State.receiverReply (s : State) (r : Reply) : State :=
  if s.control.replies.length < Config.replyRoom then s.pushReply r else s.discard

/-- An order is offered to the order buffer: appended when the buffer has room, answered FULL by the
receiver when it has not (R156). -/
def State.offer (s : State) (o : Order) : State :=
  if s.control.orders.length < Config.orderRoom then
    { s with control := { s.control with orders := s.control.orders ++ [o] } }
  else s.receiverReply ⟨o.code, o.ticket, .full, []⟩

/-- A body that passed its check is judged by its length, kind and ticket (R154, R155). That the MALFORMED
of ticket 0 carries the order's code is read from R158 and R169 (notes/assumptions/27.md). -/
def State.judgeBody (s : State) (body : List Byte) : State :=
  if body.length < 7 then s.discard
  else if byteAt body 0 ≠ 0x01 then s.discard
  else
    let o := orderOf body
    if o.ticket = 0 then s.receiverReply ⟨o.code, 0, .malformed, []⟩ else s.offer o

/-- One byte of the control line (R153). -/
def State.controlByte (s : State) (b : Byte) : State :=
  let r := receiverTake s.control.receiver b
  let s1 := { s with control := { s.control with receiver := r.1 } }
  match r.2 with
  | .nothing => s1
  | .bad => s1.discard
  | .body bytes => s1.judgeBody bytes

/-- The frame under reception is abandoned after a gap of more than 27,000 ticks (R153). -/
def State.controlGap (s : State) : State :=
  { s with control := { s.control with receiver := .hunting } }.discard

/-- Bytes arrive on the control line. A gap before them ends the frame under reception, and they are
then judged in HUNTING. -/
def State.controlBytes (s : State) (bytes : List Byte) : State :=
  let s1 :=
    if s.control.receiver ≠ .hunting ∧ s.control.lastByte + Config.gapTicks < s.now then s.controlGap
    else s
  bytes.foldl State.controlByte { s1 with control := { s1.control with lastByte := s1.now } }

/-! ### The interface's orders (R161, R162) -/

/-- Bits 8 to 15 of the set name no kind (R171): the high byte must be 0. -/
def serveNoticeSet (o : Order) (s : State) : Answer :=
  if read8 o.payload 0 ≠ 0 then refuseRange s
  else
    let e := byteAt o.payload 1
    ⟨{ s with control := { s.control with enables := e } }, .done, be16 e.toNat⟩

/-- STATUS clears the notices-lost flag in the event that reports it. -/
def serveStatus (_ : Order) (s : State) : Answer :=
  ⟨{ s with control := { s.control with lost := false } }, .done, s.statusPayload⟩

/-- A code that names no order (step 1 of R157). -/
def serveUnknown (_ : Order) (s : State) : Answer := answer .unknownOrder s

/-! ### The resets of the part (R164, R165) -/

/-- A trigger record at reset; the raw level is the pin's (R99). -/
def Trigger.resetKeepRaw (r : Trigger) : Trigger := { Trigger.reset with raw := r.raw }

/-- A wall record at reset; a record whose transmission is under way is completed (R128). -/
def Wall.resetKeepLine (r : Wall) : Wall := { Wall.reset with line := lineTail r.line }

/-- The reset pin is asserted: every block takes its reset values. What is on a line is sent to its
end; the carrier and the trigger levels are the pins' own; the running time is 0. -/
def State.assertReset (s : State) : State :=
  { State.reset with
    pending  := s.pending
    pins     := { s.pins with reset := true }
    control  := { Control.reset with line := s.control.line }
    link     := { Link.reset with line := s.link.line }
    triggers := s.triggers.map Trigger.resetKeepRaw
    walls    := s.walls.map Wall.resetKeepLine
    recorder := { Recorder.reset with line := s.recorder.line } }

/-- The link reads the carrier; present, it behaves as for a gain of carrier (R65). -/
def State.readCarrier (s : State) : State := if s.pins.carrier then s.startSurvey else s

/-- A trigger input reads its raw level; high, a qualification interval starts toward high (R99). -/
def State.readRaw (s : State) (i : InputNo) : State :=
  if (s.trig i).raw then s.startInterval i else s

/-- The reset pin is released, and the blocks begin their own work: the link reads its carrier, HALT is
issued for every channel, the trigger inputs read their levels (R165, R138, R99). The running time
starts from 0 (R28). -/
def State.releaseReset (s : State) : State :=
  let s1 := { s with now := 0, pins := { s.pins with reset := false } }
  let s2 := s1.readCarrier
  let s3 := (List.finRange 16).foldl State.issueHalt s2
  (List.finRange 8).foldl State.readRaw s3

/-- The reply DONE of a DEVICE_RESET stands on the line, and the reset it announced is due (R164). -/
def State.resetReplyOnLine (s : State) : Bool :=
  match s.control.line with
  | some (.reply r) => s.control.resetDue && r.code == 0x59 && r.verdict == .done
  | _ => false

/-- The transmission of the DONE ends, and the part behaves as for an assertion and release of the
reset pin (R164). -/
def State.deviceReset (s : State) : State :=
  { s with control := { s.control with line := none } }.assertReset.releaseReset

/-- The frame in transmission ends, and the transmitter begins the next one (R160). -/
def State.controlSent (s : State) : State :=
  { s with control := Control.begin { s.control with line := none } }

def serveDeviceReset (_ : Order) (s : State) : Answer :=
  answer .done { s with control := { s.control with resetDue := true } }

/-! ### The block resets (R163) -/

/-- The block a formed BLOCK_RESET names; none when its form or its arguments are refused. -/
def blockOf (o : Order) : Option Block :=
  if o.formed then block? (read8 o.payload 0) (read8 o.payload 1) else none

/-- A BLOCK_RESET that names one of some blocks, or that is refused (notes/assumptions/6.md). -/
def blockOrder (these : Block → Bool) (o : Order) : Bool :=
  o.code == 0x58 && (match blockOf o with
    | none => true
    | some b => these b)

/-- The payload of the reply: the block's code, and the wall for WALLS, 0xFF for the others and for
ALL. -/
def blockPayload : Block → List Byte
  | .link => be8 0 ++ be8 0xFF
  | .salvos => be8 1 ++ be8 0xFF
  | .walls w => be8 2 ++ optField (w.map (·.1))
  | .recorders => be8 3 ++ be8 0xFF
  | .panels => be8 4 ++ be8 0xFF

/-- The reset of the block named, as one event. -/
def State.resetBlock (s : State) : Block → State
  | .link => s.resetLink
  | .salvos => s.resetSalvos
  | .walls w => s.resetWalls w
  | .recorders => s.resetRecorders
  | .panels => s.resetPanels

def serveBlockReset (o : Order) (s : State) : Answer :=
  match blockOf o with
  | none => refuseRange s
  | some b => ⟨s.resetBlock b, .done, blockPayload b⟩

def State.serveBlock (s : State) (τ : Nat) (these : Block → Bool) : State :=
  s.serveIf τ (blockOrder these) (ifFormed serveBlockReset)

/-! ### Meanings -/

/-- R165. A pin that is asserted cannot be asserted again. -/
def execResetPinAssert (s : State) : Host.Outcome State Fault Refusal :=
  if s.pins.reset then .next s else .next s.assertReset

/-- R165. A pin that is not asserted cannot be released. -/
def execResetPinRelease (s : State) : Host.Outcome State Fault Refusal :=
  if s.pins.reset then .next s.releaseReset else .next s

/-- Bytes arrive on the control line and are judged byte by byte (R153 to R156). -/
def execControlFrameReceived (τ : Nat) (bytes : List Byte) (s : State) :
    Host.Outcome State Fault Refusal :=
  .next (s.event τ fun s => s.controlBytes bytes)

/-- More than 27,000 ticks have passed since the last byte of a frame under reception (R153). -/
def execControlFrameGapTimeout (s : State) : Host.Outcome State Fault Refusal :=
  if s.control.receiver = .hunting then .next s
  else .next (s.event (s.control.lastByte + Config.gapTicks + 1) State.controlGap)

def execUnknownOrder (τ : Nat) (s : State) : Host.Outcome State Fault Refusal :=
  .next (s.serveIf τ (fun o => (orderLength o.code).isNone) serveUnknown)

def execNoticeSet (τ : Nat) (s : State) : Host.Outcome State Fault Refusal :=
  .next (s.serve τ 0x50 serveNoticeSet)

def execStatus (τ : Nat) (s : State) : Host.Outcome State Fault Refusal :=
  .next (s.serve τ 0x51 serveStatus)

/-- The frame in transmission ends (R160). When it is the DONE of a DEVICE_RESET, the part resets
(R164). While the reset pin is held nothing follows it (R165). -/
def execControlTxComplete (τ : Nat) (s : State) : Host.Outcome State Fault Refusal :=
  if s.control.line.isNone then .next s
  else if s.pins.reset then .next s.controlSent
  else if s.resetReplyOnLine then .next s.deviceReset
  else .next (s.clock τ).controlSent

def execBlockResetLink (τ : Nat) (s : State) : Host.Outcome State Fault Refusal :=
  .next (s.serveBlock τ (fun b => b == .link))

def execBlockResetSalvos (τ : Nat) (s : State) : Host.Outcome State Fault Refusal :=
  .next (s.serveBlock τ (fun b => b == .salvos))

def execBlockResetWalls (τ : Nat) (s : State) : Host.Outcome State Fault Refusal :=
  .next (s.serveBlock τ (fun b => match b with
    | .walls _ => true
    | _ => false))

def execBlockResetRecorders (τ : Nat) (s : State) : Host.Outcome State Fault Refusal :=
  .next (s.serveBlock τ (fun b => b == .recorders))

def execBlockResetPanels (τ : Nat) (s : State) : Host.Outcome State Fault Refusal :=
  .next (s.serveBlock τ (fun b => b == .panels))

def execDeviceReset (τ : Nat) (s : State) : Host.Outcome State Fault Refusal :=
  .next (s.serve τ 0x59 serveDeviceReset)

/-- The DONE of a DEVICE_RESET has been sent, and the part resets; the running time restarts from 0
(R164). -/
def execDeviceResetTakesEffect (s : State) : Host.Outcome State Fault Refusal :=
  if !s.pins.reset && s.resetReplyOnLine then .next s.deviceReset else .next s

end Sys2Proof.Machine
end

