-- ==== Sys2Proof/Machine/Dispatch.lean ====
section
/-! DEFINITION. `exec`: the effect of each command, one arm per constructor, each a direct call of its
meaning. -/

namespace Sys2Proof.Machine

def exec (i : Instr) (s : State) : Host.Outcome State Fault Refusal :=
  match i with
  | .resetPinAssert => Sys2Proof.Machine.execResetPinAssert s
  | .resetPinRelease => Sys2Proof.Machine.execResetPinRelease s
  | .controlFrameReceived tm bytes => Sys2Proof.Machine.execControlFrameReceived tm bytes s
  | .controlFrameGapTimeout => Sys2Proof.Machine.execControlFrameGapTimeout s
  | .unknownOrder tm => Sys2Proof.Machine.execUnknownOrder tm s
  | .take tm => Sys2Proof.Machine.execTake tm s
  | .destSet tm => Sys2Proof.Machine.execDestSet tm s
  | .lock tm => Sys2Proof.Machine.execLock tm s
  | .unlock tm => Sys2Proof.Machine.execUnlock tm s
  | .protect tm => Sys2Proof.Machine.execProtect tm s
  | .query tm => Sys2Proof.Machine.execQuery tm s
  | .seek tm => Sys2Proof.Machine.execSeek tm s
  | .panelSet tm => Sys2Proof.Machine.execPanelSet tm s
  | .panelRead tm => Sys2Proof.Machine.execPanelRead tm s
  | .refSet tm order => Sys2Proof.Machine.execRefSet tm order s
  | .refRead tm => Sys2Proof.Machine.execRefRead tm s
  | .refEdge tm g order => Sys2Proof.Machine.execRefEdge tm g order s
  | .toleranceExpiry g order => Sys2Proof.Machine.execToleranceExpiry g order s
  | .freewheelBoundary g order => Sys2Proof.Machine.execFreewheelBoundary g order s
  | .overdueEntry d => Sys2Proof.Machine.execOverdueEntry d s
  | .takeTimedOut d => Sys2Proof.Machine.execTakeTimedOut d s
  | .takeFallsDue tm => Sys2Proof.Machine.execTakeFallsDue tm s
  | .leadSet tm => Sys2Proof.Machine.execLeadSet tm s
  | .leadRead tm => Sys2Proof.Machine.execLeadRead tm s
  | .carrierGain tm => Sys2Proof.Machine.execCarrierGain tm s
  | .carrierLoss tm => Sys2Proof.Machine.execCarrierLoss tm s
  | .routeReport tm dest source token held survey => Sys2Proof.Machine.execRouteReport tm dest source token held survey s
  | .surveyEnd tm dests sources => Sys2Proof.Machine.execSurveyEnd tm dests sources s
  | .matrixBadFrame tm bytes => Sys2Proof.Machine.execMatrixBadFrame tm bytes s
  | .matrixFrameGapTimeout => Sys2Proof.Machine.execMatrixFrameGapTimeout s
  | .matrixTxComplete tm => Sys2Proof.Machine.execMatrixTxComplete tm s
  | .salvoOpen tm => Sys2Proof.Machine.execSalvoOpen tm s
  | .salvoPut tm => Sys2Proof.Machine.execSalvoPut tm s
  | .salvoDrop tm => Sys2Proof.Machine.execSalvoDrop tm s
  | .salvoArm tm => Sys2Proof.Machine.execSalvoArm tm s
  | .salvoClear tm => Sys2Proof.Machine.execSalvoClear tm s
  | .salvoFire tm => Sys2Proof.Machine.execSalvoFire tm s
  | .salvoRead tm => Sys2Proof.Machine.execSalvoRead tm s
  | .trigSet tm => Sys2Proof.Machine.execTrigSet tm s
  | .trigRead tm => Sys2Proof.Machine.execTrigRead tm s
  | .triggerRawChange tm k level => Sys2Proof.Machine.execTriggerRawChange tm k level s
  | .qualifiedEdge k => Sys2Proof.Machine.execQualifiedEdge k s
  | .tallyRead tm => Sys2Proof.Machine.execTallyRead tm s
  | .nameSet tm => Sys2Proof.Machine.execNameSet tm s
  | .tileSet tm => Sys2Proof.Machine.execTileSet tm s
  | .wallFreeze tm => Sys2Proof.Machine.execWallFreeze tm s
  | .wallThaw tm => Sys2Proof.Machine.execWallThaw tm s
  | .wallSet tm => Sys2Proof.Machine.execWallSet tm s
  | .wallRead tm => Sys2Proof.Machine.execWallRead tm s
  | .wallRecordTxComplete tm w => Sys2Proof.Machine.execWallRecordTxComplete tm w s
  | .recBind tm => Sys2Proof.Machine.execRecBind tm s
  | .recStart tm => Sys2Proof.Machine.execRecStart tm s
  | .recStop tm => Sys2Proof.Machine.execRecStop tm s
  | .cueEnd c => Sys2Proof.Machine.execCueEnd c s
  | .recMarks tm => Sys2Proof.Machine.execRecMarks tm s
  | .recRead tm => Sys2Proof.Machine.execRecRead tm s
  | .recorderTxComplete tm => Sys2Proof.Machine.execRecorderTxComplete tm s
  | .noticeSet tm => Sys2Proof.Machine.execNoticeSet tm s
  | .status tm => Sys2Proof.Machine.execStatus tm s
  | .controlTxComplete tm => Sys2Proof.Machine.execControlTxComplete tm s
  | .blockResetLink tm => Sys2Proof.Machine.execBlockResetLink tm s
  | .blockResetSalvos tm => Sys2Proof.Machine.execBlockResetSalvos tm s
  | .blockResetWalls tm => Sys2Proof.Machine.execBlockResetWalls tm s
  | .blockResetRecorders tm => Sys2Proof.Machine.execBlockResetRecorders tm s
  | .blockResetPanels tm => Sys2Proof.Machine.execBlockResetPanels tm s
  | .deviceReset tm => Sys2Proof.Machine.execDeviceReset tm s
  | .deviceResetTakesEffect => Sys2Proof.Machine.execDeviceResetTakesEffect s

end Sys2Proof.Machine
end

