-- ==== Sys2Proof/Safety.lean ====
section
/-! DEFINITION. The words in which the claims speak: the parts of the state and what leaves them alone,
the outbound lines, an order at the front of the buffer and its answer, and the laws that the spec
gives the part between events. -/

namespace Sys2Proof.Machine

/-! ### Parts of the state, and frames -/

/-- The parts of the state: one for each field of `State`. -/
inductive Part where
  | pending | now | pins | control | map | panels | groups | sched | link | salvos | triggers
  | tally | walls | names | recorder
deriving DecidableEq, Repr

/-- A part is the same in two states. -/
def Part.Same (p : Part) (s t : State) : Prop :=
  match p with
  | .pending => t.pending = s.pending
  | .now => t.now = s.now
  | .pins => t.pins = s.pins
  | .control => t.control = s.control
  | .map => t.map = s.map
  | .panels => t.panels = s.panels
  | .groups => t.groups = s.groups
  | .sched => t.sched = s.sched
  | .link => t.link = s.link
  | .salvos => t.salvos = s.salvos
  | .triggers => t.triggers = s.triggers
  | .tally => t.tally = s.tally
  | .walls => t.walls = s.walls
  | .names => t.names = s.names
  | .recorder => t.recorder = s.recorder

/-- Nothing but the parts listed differs between two states. -/
def SameBut (ps : List Part) (s t : State) : Prop := ∀ p, p ∉ ps → p.Same s t

/-- Of the map, only the entry of `d` differs between two states. -/
def OnlyEntry (d : Dest) (s t : State) : Prop :=
  t.map.dests = s.map.dests ∧ t.map.sources = s.map.sources ∧ ∀ c, c ≠ d → t.entry c = s.entry c

/-! ### What stands on a line and waits behind it -/

/-- The replies that have not been sent to their end: the one on the line, then the reply list. -/
def Control.outReplies (c : Control) : List Reply :=
  (match c.line with
   | some (.reply r) => [r]
   | _ => []) ++ c.replies

/-- The notices that have not been sent to their end: the one on the line, then the notice queue. -/
def Control.outNotices (c : Control) : List Notice :=
  (match c.line with
   | some (.notice n) => [n]
   | _ => []) ++ c.notices

/-- The matrix messages that have not been sent to their end. -/
def Link.outbound (l : Link) : List MatrixMsg := l.line.toList ++ l.queue

/-- What the link's traffic leaves alone: its state, the unmatched-report count and the receiver. -/
def Link.Steady (l l1 : Link) : Prop :=
  l1.state = l.state ∧ l1.unmatched = l.unmatched ∧ l1.receiver = l.receiver
    ∧ l1.lastByte = l.lastByte

/-- The recorder commands that have not been sent to their end. -/
def Recorder.outbound (r : Recorder) : List RecCommand := r.line.toList ++ r.queue

/-- A notice of a kind that is on is raised into a queue with room: it stands last. -/
def Notified (c c1 : Control) (ns : List Notice) : Prop :=
  c1.outNotices = c.outNotices ++ ns ∧ c1.lost = c.lost

/-! ### An order at the front of the buffer, and its answer -/

/-- The order `o` stands oldest in the buffer, it may be served now, and the recorder unit owes no
notice (it never does between events: `WithinLimits`). -/
structure Front (s : State) (o : Order) : Prop where
  ready : s.canServe = true
  front : s.control.orders.head? = some o
  owed  : s.recorder.high = []

/-- The order `o`, with a code and a payload of the length R171 gives, may be served now. -/
structure Serving (s : State) (o : Order) (code : Byte) : Prop extends Front s o where
  code   : o.code = code
  formed : o.formed = true

/-- The interface when the oldest order has been answered and nothing else has happened to it. -/
def Control.answered (c : Control) (o : Order) (v : Verdict) (payload : List Byte) : Control :=
  Control.pushReply { c with serving := none, orders := c.orders.tail } ⟨o.code, o.ticket, v, payload⟩

/-- The state when an order that changes nothing has been answered at `τ`. -/
def State.answered (s : State) (τ : Nat) (o : Order) (v : Verdict) (payload : List Byte) : State :=
  { s with now := max s.now τ, control := s.control.answered o v payload }

/-- An order has been answered at `τ`, after a serving that raised the notices `ns`, in that order;
besides the time and the interface only the parts `ps` may differ. -/
structure Served (s t : State) (τ : Nat) (o : Order) (v : Verdict) (payload : List Byte)
    (ns : List Notice) (ps : List Part) : Prop where
  now     : t.now = max s.now τ
  control : t.control = (ns.foldl Control.raise s.control).answered o v payload
  same    : SameBut ([.now, .control] ++ ps) s t

/-- An event has happened at `now`, and has raised the notices `ns`, in that order; besides the time
and the interface only the parts `ps` may differ. -/
structure Happened (s t : State) (now : Nat) (ns : List Notice) (ps : List Part) : Prop where
  now     : t.now = now
  control : t.control = ns.foldl Control.raise s.control
  same    : SameBut ([.now, .control] ++ ps) s t

/-- The rows in which the interface serves an order, each with the code of its order. -/
def orderRows (τ : Nat) (order : FollowerOrder) : List (Byte × Instr) :=
  [(0x10, .take τ), (0x11, .destSet τ), (0x12, .lock τ), (0x13, .unlock τ), (0x14, .protect τ),
   (0x15, .query τ), (0x16, .seek τ), (0x18, .panelSet τ), (0x19, .panelRead τ),
   (0x20, .refSet τ order), (0x21, .refRead τ), (0x22, .leadSet τ), (0x23, .leadRead τ),
   (0x30, .salvoOpen τ), (0x31, .salvoPut τ), (0x32, .salvoDrop τ), (0x33, .salvoArm τ),
   (0x34, .salvoClear τ), (0x35, .salvoFire τ), (0x36, .salvoRead τ), (0x38, .trigSet τ),
   (0x39, .trigRead τ), (0x3C, .tallyRead τ), (0x40, .nameSet τ), (0x41, .tileSet τ),
   (0x42, .wallFreeze τ), (0x43, .wallThaw τ), (0x44, .wallSet τ), (0x45, .wallRead τ),
   (0x48, .recBind τ), (0x49, .recStart τ), (0x4A, .recStop τ), (0x4B, .recMarks τ),
   (0x4C, .recRead τ), (0x50, .noticeSet τ), (0x51, .status τ), (0x58, .blockResetLink τ),
   (0x58, .blockResetSalvos τ), (0x58, .blockResetWalls τ), (0x58, .blockResetRecorders τ),
   (0x58, .blockResetPanels τ), (0x59, .deviceReset τ)]

/-- An argument of an order lies outside its range, as the order's own rule states (R14, R17, R24,
R31, R43, R88 to R93, R97, R104, R105, R116, R121, R122, R130 to R133, R139 to R142, R147, R148, R161,
R163). -/
def outsideRange (o : Order) : Prop :=
  let b := read8 o.payload
  let w := read16 o.payload
  match o.code.toNat with
  | 0x10 => 512 ≤ w 0 ∨ 1024 ≤ w 2 ∨ 32 ≤ b 4
  | 0x11 => 512 ≤ w 0 ∨ 3 ≤ b 2 ∨ 4 ≤ b 3
  | 0x12 => 512 ≤ w 0 ∨ 32 ≤ b 2
  | 0x13 => 512 ≤ w 0 ∨ 32 ≤ b 2
  | 0x14 => 512 ≤ w 0 ∨ 32 ≤ b 2 ∨ 4 ≤ b 3
  | 0x15 => 512 ≤ w 0
  | 0x16 => 512 ≤ w 0 ∨ 2 ≤ b 2 ∨ 5 ≤ b 5 ∨ (b 5 = 0 ∧ 1024 ≤ w 6 ∧ w 6 ≠ 0xFFFF)
      ∨ (b 5 = 1 ∧ 3 ≤ w 6) ∨ 2 ≤ b 8
  | 0x18 => 32 ≤ b 0 ∨ 4 ≤ b 2
  | 0x19 => 32 ≤ b 0
  | 0x20 => 4 ≤ b 0 ∨ w 1 < 100 ∨ 8191 < w 1 ∨ w 3 < 20 ∨ 4095 < w 3 ∨ w 3 - 1 < w 5
  | 0x21 => 4 ≤ b 0
  | 0x30 => 16 ≤ b 0 ∨ 4 ≤ b 1 ∨ 32 ≤ b 2
  | 0x31 => 16 ≤ b 0 ∨ 512 ≤ w 1 ∨ 1024 ≤ w 3
  | 0x32 => 16 ≤ b 0 ∨ 512 ≤ w 1
  | 0x33 => 16 ≤ b 0
  | 0x34 => 16 ≤ b 0
  | 0x35 => 16 ≤ b 0
  | 0x36 => 16 ≤ b 0
  | 0x38 => 8 ≤ b 0 ∨ 5 ≤ b 1 ∨ ((b 1 = 1 ∨ b 1 = 2 ∨ b 1 = 3) ∧ 16 ≤ b 2)
  | 0x39 => 8 ≤ b 0
  | 0x3C => 1024 ≤ w 0
  | 0x40 => 1024 ≤ w 0
  | 0x41 => 8 ≤ b 0 ∨ 64 ≤ b 1 ∨ 3 ≤ b 2 ∨ (b 2 = 1 ∧ 512 ≤ w 3) ∨ (b 2 = 2 ∧ 1024 ≤ w 3)
  | 0x42 => 8 ≤ b 0
  | 0x43 => 8 ≤ b 0
  | 0x44 => 8 ≤ b 0 ∨ 4 ≤ b 1
  | 0x45 => 8 ≤ b 0 ∨ (64 ≤ b 1 ∧ b 1 ≠ 0xFF)
  | 0x48 => 16 ≤ b 0 ∨ (512 ≤ w 1 ∧ w 1 ≠ 0xFFFF)
  | 0x49 => 16 ≤ b 0
  | 0x4A => 16 ≤ b 0
  | 0x4B => 16 ≤ b 0
  | 0x4C => 16 ≤ b 0
  | 0x50 => b 0 ≠ 0
  | 0x58 => 5 ≤ b 0 ∨ (b 0 = 2 ∧ 8 ≤ b 1 ∧ b 1 ≠ 0xFF)
  | _ => False

/-! ### Tiles queued -/

/-- The tiles of one wall among some pairs, in their order. -/
def tilesOn (w : WallNo) (ps : List (WallNo × TileNo)) : List TileNo :=
  (ps.filter fun p => p.1 = w).map (·.2)

/-- Between two states each wall has queued the tiles of `ps` that did not stand in its queue, behind
the others, and nothing else of the wall has changed (R124, R125). -/
def Queued (s t : State) (ps : List (WallNo × TileNo)) : Prop :=
  ∀ w, t.wall w = { s.wall w with
    queue := (s.wall w).queue ++ (tilesOn w ps).filter (· ∉ (s.wall w).queue) }

/-! ### Takes -/

/-- A take placed as the pending take: HELD, with the countdowns and the offset of its placement and
its deferred flag clear (R47, R48, R49). -/
def heldTake (n : NextTake) (pl : Placement) : Pending where
  source    := n.source
  panel     := n.panel
  ticket    := n.ticket
  tag       := n.tag
  phase     := .held
  token     := none
  countdown := pl.countdown
  offset    := pl.offset
  landing   := pl.n
  overdue   := none
  instant   := none
  deferred  := false

/-- The take `p` of a destination has asked the pool for a token: it is SENT with a token that is
IN_USE, or it is WAITING on the list, and no token is FREE (R51, R76). -/
def Asked (t : State) (d : Dest) (p : Pending) : Prop :=
  (∃ k, (t.entry d).pending = some { p with phase := .sent, token := some k, instant := some t.now }
    ∧ t.token k = .inUse)
  ∨ ((t.entry d).pending = some { p with phase := .waiting } ∧ d ∈ t.link.waiting
    ∧ ∀ k, t.token k ≠ .free)

/-- Between two states the counts of a source have moved as `f` says, its colour follows them, and a
change of colour has been announced: the tiles that show the source are queued (R107, R113, R114). NONE
has no counts. Nothing else of the tally and of the walls has changed. -/
def TallyMoved (s t : State) (x : Option Source) (f : Tally → Tally) : Prop :=
  match x with
  | none => t.tally = s.tally ∧ t.walls = s.walls
  | some y =>
    let r := s.tallyOf y
    t.tallyOf y = { f r with colour := colourOf (f r) }
      ∧ (∀ z, z ≠ y → t.tallyOf z = s.tallyOf z)
      ∧ Queued s t (if colourOf (f r) = r.colour then []
          else (List.finRange 8).flatMap fun w => (s.showing w y).map fun i => (w, i))

/-! ### The ends of takes -/

/-- The takes of a destination that end together are reported: its pending take with the result `r`,
then, when `both`, its next take, which ends CANCELLED (R60 to R62). A report is `State.reportTake`. -/
def State.reportTakes (s : State) (d : Dest) (r : TakeResult) (both : Bool) : State :=
  let u := match (s.entry d).pending with
    | some p => s.reportTake d p.ticket p.tag r p.deferred
    | none => s
  match (s.entry d).next, both with
  | some n, true => u.reportTake d n.ticket n.tag .cancelled false
  | _, _ => u

/-! ### The recorder unit -/

/-- The channels in RECORDING that are bound to a destination, ascending. -/
def State.recordersOf (s : State) (d : Dest) : List ChannelNo :=
  (List.finRange 16).filter fun c => (s.chan c).state = .recording ∧ (s.chan c).bound = some d

/-- The channels in RECORDING that are bound to one of some destinations, ascending. -/
def State.recordersAmong (s : State) (ds : List Dest) : List ChannelNo :=
  (List.finRange 16).filter fun c => (s.chan c).state = .recording ∧ (s.chan c).bound.any (· ∈ ds)

/-- The MARKS_HIGH of some channels that log a mark each: of those whose list rises to 24 (R146). -/
def State.marksHigh (s : State) (cs : List ChannelNo) : List Notice :=
  (cs.filter fun c => (s.chan c).marks.length = 23).map fun c =>
    ⟨.marksHigh, be8 c.1 ++ be8 24 ++ be8 (if (s.chan c).wrapped then 1 else 0)⟩

/-- Between two states the recorder line has been issued a SPLIT, with the next clip number and the
group and frame count of the event, for each channel that records a destination of `ds`, in ascending
order of channel (R137, R143). -/
def SplitsIssued (s t : State) (ds : List Dest) : Prop :=
  let r := (s.recordersAmong ds).foldl (fun r c =>
    let g := s.chanGroup c
    r.issue c (.split ((s.chan c).clip + 1) g (s.stamp g)) g (s.stamp g)) s.recorder
  t.recorder.queue = r.queue ∧ t.recorder.line = r.line

/-- A channel that records `d` after a source-change event of `d`: the clip has advanced and a mark of
the cause is logged (R143). -/
def State.cutChannel (s : State) (d : Dest) (cause : MarkCause) (after : Option Source) (c : ChannelNo) :
    Channel :=
  let e := s.entry d
  let r := { s.chan c with clip := (s.chan c).clip + 1 }
  r.log ⟨cause, e.group, s.stamp e.group, r.clip, some e.source, some after⟩

/-- A channel that records `d` after a take of `d` has timed out: a SUSPECT mark is logged (R144). -/
def State.suspectChannel (s : State) (d : Dest) (c : ChannelNo) : Channel :=
  let e := s.entry d
  (s.chan c).log ⟨.suspect, e.group, s.stamp e.group, (s.chan c).clip, some e.source, some e.source⟩

/-- The MARKS_HIGH owed are raised, after the other notices of the event (R146,
notes/assumptions/26.md), and none is owed any more. -/
def State.paid (s : State) : State :=
  { s with
    control := s.recorder.high.foldl Control.raise s.control
    recorder := { s.recorder with high := [] } }

/-! ### A boundary begins -/

/-- The three followers of a boundary act, each once, in the order that the step names (R28, R29). -/
def State.followed (s : State) (b : Boundary) (order : FollowerOrder) : State :=
  let takes (u : State) := u.takesAtBoundary b
  let walls (u : State) := u.wallsAtBoundary b.group b.frame
  let recorders (u : State) := u.recordersAtBoundary b.group
  let acts : List (State → State) :=
    match order with
    | .takesWallsRecorders => [takes, walls, recorders]
    | .takesRecordersWalls => [takes, recorders, walls]
    | .wallsTakesRecorders => [walls, takes, recorders]
    | .wallsRecordersTakes => [walls, recorders, takes]
    | .recordersTakesWalls => [recorders, takes, walls]
    | .recordersWallsTakes => [recorders, walls, takes]
  acts.foldl (fun u act => act u) s

/-- The state in which a boundary of `g` at `time` begins to be handed to its followers: the group
record `r`, whose frame count is the one before the boundary, advances to the frame that begins, with
the state and the P that the kind of the boundary gives; a staged geometry becomes active with P its F
(R28, R34); the notice of its kind is raised (R42). -/
def State.frameBegins (s : State) (g : Group) (q : Geometry) (time : Nat)
    (state : RefState) (p : Nat) (kind : Option RefKind) : State × Boundary :=
  let r := s.grp g
  let q1 := r.staged.getD q
  let r1 : GroupRec :=
    { state := state, active := some q1, staged := none,
      period := (match r.staged with
        | some x => x.l * x.h
        | none => p),
      frame := r.frame + 1, last := some time }
  let u := s.setGrp g r1
  ((match kind with
    | some k => u.raise (refNotice g k r1)
    | none => u),
   { group := g, frame := r.frame + 1, time := time, geometry := q1, applied := r.staged.isSome,
     oldSwitch := q.s * q.h })

/-! ### The laws of the device -/

/-- Every block holds its reset values; what may stand on a line, the pins and the raw levels of the
trigger inputs are not the part's to choose (R1, R13, R26, R45, R65, R87, R99, R106, R118, R119,
R121, R136, R137, R152). -/
structure ResetValues (s : State) : Prop where
  now      : s.now = 0
  control  : s.control =
    { receiver := .hunting, lastByte := 0, orders := [], serving := none, replies := [],
      notices := [], line := s.control.line, enables := 0x7B, discards := 0, lost := false,
      resetDue := false }
  entries  : ∀ d, s.entry d =
    { source := none, cls := .unclassed, group := .a, protect := 3, lock := none, suspect := false,
      pending := none, next := none, tiles := [] }
  counts   : s.map.dests = 0 ∧ s.map.sources = 0
  panels   : ∀ p, s.panel p =
    if p = 0 then ⟨true, 0, 0, 511, 511, 0⟩ else ⟨false, 3, 511, 0, 511, 0⟩
  groups   : ∀ g, s.grp g = ⟨.disabled, none, none, 0, 0, none⟩
  sched    : s.sched = ⟨8192, 3, 2700, 3⟩
  link     : s.link.state = .down ∧ s.link.waiting = [] ∧ s.link.unmatched = 0
    ∧ s.link.queue = [] ∧ s.link.receiver = .hunting ∧ s.link.lastByte = 0
  pool     : ∀ t, s.token t = .free
  slots    : ∀ k, s.slot k =
    { state := .empty, group := .a, owner := 0, entries := [], outstanding := 0, firing := none }
  triggers : ∀ i, s.trig i =
    { mode := .unused, target := none, q := 10, enable := false, level := false, interval := none,
      raw := (s.trig i).raw }
  tally    : ∀ x, s.tallyOf x = { program := 0, preview := 0, record := 0, colour := .off }
  walls    : ∀ w, (s.wall w).group = .a ∧ (s.wall w).budget = 4 ∧ (s.wall w).frozen = false
    ∧ (s.wall w).queue = []
  tiles    : ∀ w t, s.tile w t = { kind := .invalid, blank := false }
  names    : ∀ x (i : Fin 8), (s.nameOf x)[i] = 0x20
  channels : ∀ c, s.chan c =
    { bound := none, lead := 0, state := .idle, cue := none, clip := 0, marks := [],
      wrapped := false }
  line     : s.recorder.queue = [] ∧ s.recorder.high = []

/-- While the reset pin is asserted, every block holds its reset values (R165). -/
def HeldAtReset (s : State) : Prop := s.pins.reset = true → ResetValues s

/-- The values of a geometry lie in their ranges (R27). -/
structure Geometry.InRange (q : Geometry) : Prop where
  h    : 100 ≤ q.h ∧ q.h ≤ 8191
  l    : 20 ≤ q.l ∧ q.l ≤ 4095
  s    : q.s < q.l
  tol  : 1 ≤ q.tol ∧ q.tol ≤ q.l * q.h / 4
  kref : q.kref ≤ 7

/-- The group record (R26, R40): in DISABLED it holds its reset values, so it has no geometry; otherwise
it has an active geometry and a last boundary time, its geometries lie in their ranges, and P lies from
floor(F/2) to 2F. -/
structure GroupRec.Lawful (r : GroupRec) : Prop where
  disabled : r.state = .disabled → r = ⟨.disabled, none, none, 0, 0, none⟩
  enabled  : r.state ≠ .disabled → r.last.isSome ∧ ∃ q, r.active = some q ∧ q.InRange
    ∧ q.l * q.h / 2 ≤ r.period ∧ r.period ≤ 2 * (q.l * q.h)
  staged   : ∀ q, r.staged = some q → q.InRange

/-- The limits of the interface's lists (R156, R157, R159), of the mark lists (R146), of the recorder
line queue, which holds one command for a channel (R137), and of the group records (R26, R40); and
nothing owed between events. -/
structure WithinLimits (s : State) : Prop where
  orders   : s.control.orders.length ≤ 8
  replies  : s.control.replies.length ≤ 16
  notices  : s.control.notices.length ≤ 32
  marks    : ∀ c, (s.chan c).marks.length ≤ 32
  commands : (s.recorder.queue.map (·.channel)).Nodup
  groups   : ∀ g, (s.grp g).Lawful
  owed     : s.recorder.high = []

/-- The command queued for a channel is a HALT exactly when the channel is IDLE, so that the pairings
that the table of R137 does not list do not arise. -/
def OwedCommandsFit (s : State) : Prop :=
  ∀ x ∈ s.recorder.queue, (∃ clip, x.op = .halt clip) ↔ (s.chan x.channel).state = .idle

/-- While the matrix link is not UP, no destination has a pending or next take, no token is IN_USE or
STALE, and nobody waits for one (R72). -/
def QuietUnlessUp (s : State) : Prop :=
  s.link.state ≠ .up →
    (∀ d, (s.entry d).pending = none ∧ (s.entry d).next = none) ∧ (∀ t, s.token t = .free)
      ∧ s.link.waiting = []

/-- A take holds a token: it is SENT or OVERDUE. -/
def Pending.inFlight (p : Pending) : Prop := p.phase = .sent ∨ p.phase = .overdue

/-- Tokens and takes (R75, R76): a pending take has a token exactly while it is SENT or OVERDUE, that
token is IN_USE, no two takes share one, every token IN_USE belongs to a take, the waiting list names
each take in WAITING once, while a take waits no token is FREE (R77), and a destination holds a next
take only while its pending take is SENT or OVERDUE (R6). -/
structure TokenLaw (s : State) : Prop where
  held    : ∀ d p, (s.entry d).pending = some p → (p.token.isSome ↔ p.inFlight)
  inUse   : ∀ d p t, (s.entry d).pending = some p → p.token = some t → s.token t = .inUse
  alone   : ∀ d e p q t, (s.entry d).pending = some p → (s.entry e).pending = some q →
    p.token = some t → q.token = some t → d = e
  owned   : ∀ t, s.token t = .inUse → ∃ d p, (s.entry d).pending = some p ∧ p.token = some t
  waiting : ∀ d, d ∈ s.link.waiting ↔ ∃ p, (s.entry d).pending = some p ∧ p.phase = .waiting
  once    : s.link.waiting.Nodup
  busy    : s.link.waiting ≠ [] → ∀ t, s.token t ≠ .free
  behind  : ∀ d, (s.entry d).next ≠ none → ∃ p, (s.entry d).pending = some p ∧ p.inFlight

/-- The fan-out lists (R7, R123): each in ascending order without repetition, at most 8 pairs long,
and holding exactly the tiles of kind DEST bound to its destination. -/
structure FanoutLaw (s : State) : Prop where
  ordered : ∀ d, (s.entry d).tiles.Pairwise (fun p q => pairBefore p q = true)
  length  : ∀ d, (s.entry d).tiles.length ≤ 8
  bound   : ∀ d w t, (w, t) ∈ (s.entry d).tiles ↔ (s.tile w t).kind = .dest d

/-- Between two states the tiles of every destination that held a pending take have been queued (R12,
R62): in ascending order of destination, when the fan-out lists are lawful (notes/assumptions/10.md). -/
def TilesOfTakesQueued (s t : State) : Prop :=
  (∀ d, (s.entry d).pending ≠ none → ∀ w i, (w, i) ∈ (s.entry d).tiles → i ∈ (t.wall w).queue)
    ∧ (FanoutLaw s → Queued s t (((List.finRange 512).filter fun d => (s.entry d).pending ≠ none).flatMap
        fun d => (s.entry d).tiles))

/-- The update queues (R119, R124): each holds a tile at most once, a tile queued is valid or has blank
pending, and a tile with blank pending is INVALID and queued. -/
structure UpdateQueueLaw (s : State) : Prop where
  once  : ∀ w, (s.wall w).queue.Nodup
  due   : ∀ w, ∀ i ∈ (s.wall w).queue, (s.tile w i).kind ≠ .invalid ∨ (s.tile w i).blank = true
  blank : ∀ w i, (s.tile w i).blank = true → (s.tile w i).kind = .invalid ∧ i ∈ (s.wall w).queue

/-- How many pending and next takes carry the salvo tag `k`. -/
def State.tagged (s : State) (k : SlotNo) : Nat :=
  (List.finRange 512).countP (fun d => (s.entry d).pending.any (·.tag = some k))
    + (List.finRange 512).countP (fun d => (s.entry d).next.any (·.tag = some k))

/-- The laws of the salvo store: a list names each destination once, holds at most 48 entries and only
destinations of the slot's group (R89), and an EMPTY slot holds none; the outstanding count is the
number of takes tagged with the slot, and the slot is FIRING exactly while it is above 0 (R96); a tagged
take has ticket 0 (R5). -/
structure SalvoLaw (s : State) : Prop where
  once    : ∀ k, ((s.slot k).entries.map (·.1)).Nodup
  length  : ∀ k, (s.slot k).entries.length ≤ 48
  group   : ∀ k, ∀ e ∈ (s.slot k).entries, (s.entry e.1).group = (s.slot k).group
  empty   : ∀ k, (s.slot k).state = .empty → (s.slot k).entries = []
  count   : ∀ k, (s.slot k).outstanding = s.tagged k
  firing  : ∀ k, (s.slot k).state = .firing ↔ 0 < (s.slot k).outstanding
  pending : ∀ d p, (s.entry d).pending = some p → p.tag ≠ none → p.ticket = 0
  next    : ∀ d n, (s.entry d).next = some n → n.tag ≠ none → n.ticket = 0

/-- How many destinations of a class carry a source. -/
def State.carrying (s : State) (c : DestClass) (x : Source) : Nat :=
  (List.finRange 512).countP fun d => (s.entry d).cls == c && (s.entry d).source == some x

/-- How many channels record a source: those in RECORDING whose bound destination carries it. -/
def State.recording (s : State) (x : Source) : Nat :=
  (List.finRange 16).countP fun c => (s.chan c).state == .recording && s.chanSource c == some x

/-- The laws of the tally unit (R107, R108). -/
structure TallyLaw (s : State) : Prop where
  program : ∀ x, (s.tallyOf x).program = s.carrying .program x
  preview : ∀ x, (s.tallyOf x).preview = s.carrying .preview x
  record  : ∀ x, (s.tallyOf x).record = s.recording x
  colour  : ∀ x, (s.tallyOf x).colour = colourOf (s.tallyOf x)

end Sys2Proof.Machine
end

