-- ==== Sys2Proof/Certificates/Slice0/Obligations.lean ====
section
/-! DEFINITION. What is to be proved of the 2460. Each statement names the rules of spec/ it states. An
order's statement speaks of the step in which that order, standing oldest in the buffer, is served:
`Serving s o code` says so, `s.answered τ o outcome payload` is the state that differs from `s` only in
the order's answer, and `read8 o.payload i`, `read16 o.payload i` are the fields of R171. -/

open Sys2Proof Sys2Proof.Machine

/-! ### The machine -/

/-- Step: the command at the front of the queue takes effect on the state with the queue's rest. On an
empty queue nothing happens (the model's choice, notes/assumptions/3.md). -/
def Obligations.StepRunsTheCommandInFront : Prop :=
  (∀ (c : Instr) (s : State), step { s with pending := c :: s.pending } = exec c s)
    ∧ ∀ s : State, s.pending = [] → step s = .next s

/-- Each of the 67 steps answers a next state, and leaves the queue of waiting commands alone. That no
step faults or is refused is read from the spec as a whole (notes/assumptions/28.md), and that a step
which cannot happen now answers the state as it is is the model's choice (notes/assumptions/5.md). What
each step does is said by the statements after this one. -/
def Obligations.EveryCommandAnswersANextState : Prop :=
  ∀ (c : Instr) (s : State), ∃ t, exec c s = .next t ∧ t.pending = s.pending

/-! ### Resets of the part (R165, R164) -/

/-- The state after reset holds the reset values and every law of the device. That the pin is held and
the carrier absent is the model's choice (notes/assumptions/2.md). -/
def Obligations.ResetStateMeetsEveryLaw : Prop :=
  ResetValues State.reset ∧ State.reset.pins = ⟨true, false⟩ ∧ State.reset.pending = []
    ∧ State.reset.control.line = none ∧ State.reset.link.line = none ∧ State.reset.recorder.line = none
    ∧ HeldAtReset State.reset ∧ WithinLimits State.reset ∧ OwedCommandsFit State.reset
    ∧ QuietUnlessUp State.reset ∧ TokenLaw State.reset ∧ TallyLaw State.reset
    ∧ FanoutLaw State.reset ∧ UpdateQueueLaw State.reset ∧ SalvoLaw State.reset

/-- RESET_PIN_ASSERT: every block takes its reset values; the frame under way on each line is sent to
its end and nothing follows it (R165, R65, R128, R138); the trigger levels are the pins' own. -/
def Obligations.ResetPinAssertGivesTheResetValues : Prop :=
  ∀ s : State, s.pins.reset = false →
    ∃ t, exec .resetPinAssert s = .next t ∧ ResetValues t
      ∧ t.pins = { s.pins with reset := true } ∧ t.pending = s.pending
      ∧ t.control.line = s.control.line ∧ t.link.line = s.link.line
      ∧ t.recorder.line = s.recorder.line
      ∧ (∀ w, (t.wall w).line = (s.wall w).line.take 1) ∧ ∀ i, (t.trig i).raw = (s.trig i).raw

/-- RESET_PIN_RELEASE: the running time starts (R28); the link reads its carrier (R65, R69); HALT is
issued for channels 0 to 15 in ascending order (R138); an input whose raw level is high starts a
qualification interval toward high (R99). -/
def Obligations.ResetPinReleaseStartsOperation : Prop :=
  ∀ s : State, s.pins.reset = true → ResetValues s →
    ∃ t, exec .resetPinRelease s = .next t
      ∧ SameBut [.pins, .control, .link, .triggers, .recorder] s t
      ∧ t.pins = { s.pins with reset := false }
      ∧ (s.pins.carrier = false → t.link = s.link ∧ t.control = s.control)
      ∧ (s.pins.carrier = true → t.link.state = .surveying
          ∧ t.link.outbound = s.link.outbound ++ [.surveyReq]
          ∧ (∀ k, t.token k = .free) ∧ t.link.waiting = [] ∧ t.link.unmatched = 0
          ∧ Notified s.control t.control [linkNotice .surveying .down .carrierGained 0 0]
          ∧ t.control.outReplies = s.control.outReplies)
      ∧ t.recorder.outbound
          = s.recorder.outbound ++ (List.finRange 16).map (fun c => ⟨c, .halt 0⟩)
      ∧ (∀ c, t.chan c = s.chan c)
      ∧ ∀ i, t.trig i
          = { s.trig i with interval := if (s.trig i).raw then some ⟨0, 10⟩ else none }

/-- While the reset pin is asserted, every block holds its reset values (R165): every step keeps that,
from every state. -/
def Obligations.EveryStepKeepsThePartHeldAtReset : Prop :=
  ∀ s t : State, HeldAtReset s → step s = .next t → HeldAtReset t

/-- DEVICE_RESET: it is answered DONE, and from then on no order is served (R164).
DEVICE_RESET_TAKES_EFFECT: when the transmission of the DONE ends, the part behaves as for an assertion
and a release of the reset pin; the end of that transmission is the same event. -/
def Obligations.DeviceResetActsAfterItsReply : Prop :=
  (∀ (τ : Nat) (s : State) (o : Order), Serving s o 0x59 →
    exec (.deviceReset τ) s = .next
      { s.answered τ o .done [] with
        control := { s.control.answered o .done [] with resetDue := true } })
    ∧ (∀ (τ : Nat) (order : FollowerOrder) (s : State) (row : Byte × Instr),
      s.control.resetDue = true → row ∈ (0x00, Instr.unknownOrder τ) :: orderRows τ order →
        exec row.2 s = .next s)
    ∧ ∀ (τ : Nat) (s : State) (r : Reply), s.pins.reset = false → s.control.resetDue = true →
      s.control.line = some (.reply r) → r.code = 0x59 → r.verdict = .done →
      ∃ t u, exec .resetPinAssert { s with control := { s.control with line := none } } = .next t
        ∧ exec .resetPinRelease t = .next u
        ∧ exec .deviceResetTakesEffect s = .next u ∧ exec (.controlTxComplete τ) s = .next u

/-! ### The control line -/

/-- CONTROL_FRAME_RECEIVED, an order: the bytes of a frame (R167, R168, R169) that carries an order with
a ticket, taken by a receiver in HUNTING with room in the buffer, put exactly that order at the end of
the order buffer (R153, R155, R156), and nothing else happens. -/
def Obligations.OrderFrameIsDecodedIntoTheBuffer : Prop :=
  ∀ (τ : Nat) (s : State) (o : Order), s.pins.reset = false → s.recorder.high = [] →
    s.control.receiver = .hunting → s.control.orders.length < 8 →
    o.ticket ≠ 0 → o.declared < 65536 → o.payload.length ≤ 1017 →
    exec (.controlFrameReceived τ (frameOf (orderBody o))) s = .next
      { s with
        now := max s.now τ
        control := { s.control with
          lastByte := max s.now τ, orders := s.control.orders ++ [o] } }

/-- CONTROL_FRAME_RECEIVED, an order the receiver answers itself: FULL when the buffer holds 8,
MALFORMED for ticket 0; with 16 replies waiting the frame is discarded and counted instead, and the
count stays at 65535 (R154, R155, R156). A reply begins at once when the line is idle (R160). That the
MALFORMED of ticket 0 carries the order's code, as R156 says of FULL, is the model's reading of R158 and
R169 (notes/assumptions/27.md). -/
def Obligations.ReceiverAnswersFullAndTicketZero : Prop :=
  ∀ (τ : Nat) (s : State) (o : Order), s.pins.reset = false → s.recorder.high = [] →
    s.control.receiver = .hunting → o.declared < 65536 → o.payload.length ≤ 1017 →
    (o.ticket = 0 ∨ 8 ≤ s.control.orders.length) →
    exec (.controlFrameReceived τ (frameOf (orderBody o))) s = .next
      { s with
        now := max s.now τ
        control :=
          if s.control.replies.length < 16 then
            Control.pushReply { s.control with lastByte := max s.now τ }
              ⟨o.code, o.ticket, if o.ticket = 0 then .malformed else .full, []⟩
          else { s.control with
            lastByte := max s.now τ, discards := min (s.control.discards + 1) 65535 } }

/-- CONTROL_FRAME_RECEIVED, a frame that fails: a body length outside 6 to 1024 discards it at the
second length byte, a wrong check at the last check byte, and a body of 6 bytes, which is shorter than
its header, or of a kind that is not ORDER when the check passes; the discard count rises by one and
stays at 65535, the receiver hunts, and nothing else happens (R153, R154, R155, R169). -/
def Obligations.BadControlFrameIsDiscardedAndCounted : Prop :=
  ∀ (τ : Nat) (s : State) (bytes : List Byte), s.pins.reset = false → s.recorder.high = [] →
    s.control.receiver = .hunting →
    ((∃ n, n < 65536 ∧ ¬ (6 ≤ n ∧ n ≤ 1024) ∧ bytes = 0xB4 :: be16 n)
      ∨ (∃ body c, 6 ≤ body.length ∧ body.length ≤ 1024 ∧ c < 65536
        ∧ c ≠ (crc (be16 body.length ++ body)).toNat
        ∧ bytes = 0xB4 :: be16 body.length ++ body ++ be16 c)
      ∨ ∃ body, 6 ≤ body.length ∧ body.length ≤ 1024 ∧ (body.length = 6 ∨ body.head? ≠ some 0x01)
        ∧ bytes = frameOf body) →
    exec (.controlFrameReceived τ bytes) s = .next
      { s with
        now := max s.now τ
        control := { s.control with
          lastByte := max s.now τ, discards := min (s.control.discards + 1) 65535 } }

/-- CONTROL_FRAME_GAP_TIMEOUT and MATRIX_FRAME_GAP_TIMEOUT: a gap of more than 27,000 ticks after a
byte of a frame under reception abandons the frame, which is discarded and counted (R153, R154, R68,
R86). What arrives after such a gap, bytes or a whole message of the router, is taken as after that step
(notes/assumptions/21.md and 22.md). -/
def Obligations.GapAbandonsTheFrame : Prop :=
  ∀ s : State, s.pins.reset = false → s.recorder.high = [] →
    (s.control.receiver ≠ .hunting →
      let u : State := { s with
        now := max s.now (s.control.lastByte + 27001)
        control := { s.control with
          receiver := .hunting, discards := min (s.control.discards + 1) 65535 } }
      exec .controlFrameGapTimeout s = .next u
        ∧ ∀ (τ : Nat) (bytes : List Byte), s.control.lastByte + 27000 < max s.now τ →
          exec (.controlFrameReceived τ bytes) s = exec (.controlFrameReceived τ bytes) u)
    ∧ (s.link.receiver ≠ .hunting → s.link.state ≠ .down →
      let u : State := { s with
        now := max s.now (s.link.lastByte + 27001)
        link := { s.link with
          receiver := .hunting, unmatched := min (s.link.unmatched + 1) 65535 } }
      exec .matrixFrameGapTimeout s = .next u
        ∧ ∀ τ : Nat, s.link.lastByte + 27000 < max s.now τ →
          (∀ bytes, exec (.matrixBadFrame τ bytes) s = exec (.matrixBadFrame τ bytes) u)
          ∧ (∀ dests sources,
              exec (.surveyEnd τ dests sources) s = exec (.surveyEnd τ dests sources) u)
          ∧ ∀ dest source token held survey,
              exec (.routeReport τ dest source token held survey) s
                = exec (.routeReport τ dest source token held survey) u)

/-- The form test that stands before every serving (R157, steps 1 and 2): a code that names no order is
answered UNKNOWN_ORDER, in the UNKNOWN_ORDER row; a payload of another length than R171 gives for the
code is answered MALFORMED, in the row of that code. Nothing else changes. That each of the five rows of
BLOCK_RESET answers one that is MALFORMED is the model's choice (notes/assumptions/6.md). -/
def Obligations.FormIsTestedBeforeAnOrderIsServed : Prop :=
  (∀ (τ : Nat) (s : State) (o : Order), Front s o → orderLength o.code = none →
    exec (.unknownOrder τ) s = .next (s.answered τ o .unknownOrder []))
    ∧ ∀ (τ : Nat) (order : FollowerOrder) (s : State) (o : Order) (row : Byte × Instr),
      Front s o → row ∈ orderRows τ order → o.code = row.1 → o.formed = false →
        exec row.2 s = .next (s.answered τ o .malformed [])

/-- NOTICE_SET (R161): a set that turns on a code naming no kind (its high byte is not 0, R171) is
refused OUT_OF_RANGE; otherwise it is stored, and the reply carries it. -/
def Obligations.NoticeSetReplacesTheEnables : Prop :=
  ∀ (τ : Nat) (s : State) (o : Order), Serving s o 0x50 →
    (read8 o.payload 0 ≠ 0 → exec (.noticeSet τ) s = .next (s.answered τ o .outOfRange []))
    ∧ (read8 o.payload 0 = 0 → exec (.noticeSet τ) s = .next
        { s.answered τ o .done [0x00, byteAt o.payload 1] with
          control := { s.control.answered o .done [0x00, byteAt o.payload 1] with
            enables := byteAt o.payload 1 } })

/-- STATUS (R162): the reply carries the identity, the link's state and the declared counts, the state
of each group, the tokens in each condition, the waiting list's length, the two counts, the
notices-lost flag, the notice queue's length, the enables, the buffer's occupancy and the reply list's
length, as they stand; the notices-lost flag is cleared, and nothing else changes. -/
def Obligations.StatusReportsAndClearsTheLostFlag : Prop :=
  ∀ (τ : Nat) (s : State) (o : Order), Serving s o 0x51 →
    exec (.status τ) s = .next
      { s with
        now := max s.now τ
        control := Control.answered { s.control with lost := false } o .done
          (be16 2460 ++ be8 0x41 ++ be8 s.link.state.code ++ be16 s.map.dests ++ be16 s.map.sources
            ++ be8 (s.grp .a).state.code ++ be8 (s.grp .b).state.code ++ be8 (s.grp .c).state.code
            ++ be8 (s.grp .d).state.code
            ++ be8 (s.link.pool.toList.countP (· = .inUse))
            ++ be8 (s.link.pool.toList.countP (fun t => t ≠ .inUse ∧ t ≠ .free))
            ++ be8 (s.link.pool.toList.countP (· = .free))
            ++ be16 s.link.waiting.length ++ be16 s.control.discards ++ be16 s.link.unmatched
            ++ be8 (if s.control.lost then 1 else 0) ++ be8 s.control.notices.length
            ++ be16 s.control.enables.toNat ++ be8 s.control.orders.length
            ++ be8 s.control.replies.length) }

/-- CONTROL_TX_COMPLETE (R160): when the frame in transmission ends, the oldest reply begins; with no
reply waiting, the oldest notice; with neither, the line is idle. A DEVICE_RESET that has been served
leaves that as it is until its own DONE stands on the line (R164). -/
def Obligations.TransmitterSendsRepliesBeforeNotices : Prop :=
  ∀ (τ : Nat) (s : State), s.pins.reset = false → s.control.line ≠ none →
    (s.control.resetDue = true → ∀ r, s.control.line = some (.reply r) →
      ¬ (r.code = 0x59 ∧ r.verdict = .done)) →
    exec (.controlTxComplete τ) s = .next
      { s with
        now := max s.now τ
        control :=
          match s.control.replies, s.control.notices with
          | r :: rs, _ => { s.control with line := some (.reply r), replies := rs }
          | [], n :: ns => { s.control with line := some (.notice n), notices := ns }
          | [], [] => { s.control with line := none } }

/-- A notice raised (R159): nothing when its kind's enable is off; appended when fewer than 32 wait;
dropped, with the notices-lost flag set, when 32 wait. -/
def Obligations.RaisedNoticeIsIgnoredQueuedOrDropped : Prop :=
  ∀ (s : State) (n : Notice),
    (s.control.enables.getLsbD (kindBit n.kind) = false → s.raise n = s)
    ∧ (s.control.enables.getLsbD (kindBit n.kind) = true → s.control.notices.length < 32 →
        Notified s.control (s.raise n).control [n] ∧ SameBut [.control] s (s.raise n)
          ∧ (s.raise n).control.outReplies = s.control.outReplies
          ∧ (s.raise n).control.orders = s.control.orders)
    ∧ (s.control.enables.getLsbD (kindBit n.kind) = true → 32 ≤ s.control.notices.length →
        s.raise n = { s with control := { s.control with lost := true } })

/-- The order buffer never holds more than 8 orders, the reply list 16 replies, the notice queue 32
notices, a mark list 32 marks (R156, R157, R159, R146), the recorder line queue more than one command for
a channel (R137); a group has a geometry exactly outside DISABLED, and its P lies from floor(F/2) to 2F
(R26, R40); and no MARKS_HIGH is owed between events: every step keeps that. It keeps, too, that a
channel's queued command is a HALT exactly when the channel is IDLE (R137), in a part that holds its
reset values while the pin is asserted (`EveryStepKeepsThePartHeldAtReset`). -/
def Obligations.EveryStepKeepsTheRecordsWithinTheirLimits : Prop :=
  ∀ s t : State, WithinLimits s → step s = .next t →
    WithinLimits t ∧ (HeldAtReset s → OwedCommandsFit s → OwedCommandsFit t)

/-! ### The map and its orders -/

/-- An argument outside its range (R14, R17, R24, R31, and the range test of every other order's rule)
refuses the order OUT_OF_RANGE, in the order's own row, and changes nothing. That each of the five rows
of BLOCK_RESET answers one whose block or wall names nothing (R163) is the model's choice
(notes/assumptions/6.md). -/
def Obligations.ArgumentsOutOfRangeAreRefused : Prop :=
  ∀ (τ : Nat) (order : FollowerOrder) (s : State) (o : Order) (row : Byte × Instr),
    row ∈ orderRows τ order → Serving s o row.1 → outsideRange o →
      exec row.2 s = .next (s.answered τ o .outOfRange [])

/-- The access check (R16) refuses at the first of its seven steps that refuses; TAKE makes all seven,
LOCK and PROTECT all but step 3 and the source of step 4 (R18). A refusal is the order's outcome, and
nothing changes. -/
def Obligations.AccessCheckRefusesAtItsFirstFailingStep : Prop :=
  (∀ (s : State) (p : PanelNo) (d : Dest) (x : Option Source),
    s.accessCheck p d x =
      (([(!(s.panel p).enabled, .panelOff),
         (!(decide ((s.panel p).low1 ≤ d ∧ d ≤ (s.panel p).high1)
            || decide ((s.panel p).low2 ≤ d ∧ d ≤ (s.panel p).high2)), .outsideWindow),
         (x.isSome && s.link.state != .up, .matrixDown),
         (decide (s.map.dests ≤ d.1) || x.any (fun y => decide (s.map.sources ≤ y.1)), .absent),
         ((s.grp (s.entry d).group).state == .disabled, .noReference),
         ((s.entry d).lock.any (· != p), .locked),
         (decide ((s.entry d).protect < (s.panel p).level), .isProtected)]
        : List (Bool × Verdict)).find? (·.1)).map (·.2))
    ∧ (∀ (τ : Nat) (s : State) (o : Order) (d : Dest) (x : Source) (p : PanelNo) (v : Verdict),
        Serving s o 0x10 → read16 o.payload 0 = d → read16 o.payload 2 = x → read8 o.payload 4 = p →
        s.accessCheck p d (some x) = some v → exec (.take τ) s = .next (s.answered τ o v []))
    ∧ ∀ (τ : Nat) (s : State) (o : Order) (d : Dest) (p : PanelNo) (v : Verdict),
        read16 o.payload 0 = d → read8 o.payload 2 = p → s.accessCheck p d none = some v →
        (Serving s o 0x12 → exec (.lock τ) s = .next (s.answered τ o v []))
        ∧ (Serving s o 0x14 → read8 o.payload 3 < 4 →
            exec (.protect τ) s = .next (s.answered τ o v []))

/-- The orders that read change nothing but the interface, and reply DONE with what they read, in the
bytes of R172: QUERY (R23), PANEL_READ (R14), REF_READ (R43), LEAD_READ (R64), SALVO_READ (R97),
TRIG_READ (R105), TALLY_READ (R116), WALL_READ of a wall and of one of its tiles (R133, R120), REC_READ
(R148). That REF_READ of a DISABLED group sends its F and S as 0, and that TRIG_READ sends a low level as
0 and a high one as 1, are the model's choices (notes/assumptions/36.md and 42.md). -/
def Obligations.ReadingOrdersChangeNothing : Prop :=
  ∀ (τ : Nat) (s : State) (o : Order),
    let read (payload : List Byte) : Host.Outcome State Fault Refusal :=
      .next (s.answered τ o .done payload)
    let flag (b : Bool) : List Byte := be8 (if b then 1 else 0)
    let opt (v : Option Nat) : List Byte :=
      match v with
      | some n => be8 n
      | none => be8 0xFF
    let source (v : Option Source) : List Byte :=
      match v with
      | some x => be16 x.1
      | none => be16 0xFFFF
    let geometry (v : Option Geometry) : List Byte :=
      match v with
      | some q => be16 q.h ++ be16 q.l ++ be16 q.s ++ be32 q.tol ++ be8 q.kref ++ be8 1 ++ be16 0
      | none => List.replicate 14 0
    (∀ d : Dest, Serving s o 0x15 → read16 o.payload 0 = d →
      let e := s.entry d
      let pending :=
        match e.pending with
        | none => be8 0 ++ List.replicate 12 0xFF
        | some p =>
          be8 1 ++ be16 p.source.1 ++ be8 p.panel.1 ++ be16 p.ticket.toNat ++ opt (p.tag.map (·.1))
            ++ be8 p.phase.code
            ++ (match p.token with
              | some k => be8 (k.1 + 1)
              | none => be8 0)
            ++ be8 p.countdown ++ be8 p.landing ++ opt p.overdue ++ flag p.deferred
      let next :=
        match e.next with
        | none => be8 0 ++ List.replicate 6 0xFF
        | some n =>
          be8 1 ++ be16 n.source.1 ++ be8 n.panel.1 ++ be16 n.ticket.toNat ++ opt (n.tag.map (·.1))
      exec (.query τ) s = read
        (flag (decide (d.1 < s.map.dests)) ++ source e.source ++ be8 e.cls.code
          ++ be8 (groupCode e.group) ++ be8 e.protect.1 ++ opt (e.lock.map (·.1)) ++ flag e.suspect
          ++ pending ++ next
          ++ be8 e.tiles.length ++ e.tiles.flatMap fun p => be8 p.1.1 ++ be8 p.2.1))
    ∧ (∀ p : PanelNo, Serving s o 0x19 → read8 o.payload 0 = p →
      let r := s.panel p
      exec (.panelRead τ) s = read
        (be8 p.1 ++ flag r.enabled ++ be8 r.level.1 ++ be16 r.low1.1 ++ be16 r.high1.1
          ++ be16 r.low2.1 ++ be16 r.high2.1))
    ∧ (∀ g : Group, Serving s o 0x21 → read8 o.payload 0 = groupCode g →
      let r := s.grp g
      let (F, S) : Nat × Nat :=
        match r.active with
        | some q => (q.l * q.h, q.s * q.h)
        | none => (0, 0)
      let since :=
        match r.last with
        | some b => max s.now τ - b
        | none => 0
      exec (.refRead τ) s = read
        (be8 r.state.code ++ geometry r.active ++ be32 F ++ be32 S ++ geometry r.staged
          ++ be32 r.period ++ be24 r.frame.toNat ++ be32 since))
    ∧ (Serving s o 0x23 →
      exec (.leadRead τ) s = read
        (be16 s.sched.lead ++ be8 s.sched.k ++ be16 s.sched.guard ++ be8 s.sched.timeout))
    ∧ (∀ k : SlotNo, Serving s o 0x36 → read8 o.payload 0 = k →
      let q := s.slot k
      let firing :=
        match q.firing with
        | none => be8 0 ++ List.replicate 17 0xFF
        | some f =>
          be8 1 ++ be8 (groupCode f.group) ++ be24 f.landing.toNat ++ be8 f.n ++ be8 f.accepted
            ++ be8 f.placed ++ be8 f.queued ++ be8 f.refused ++ opt (f.refusal.map Verdict.code)
            ++ be8 f.confirmed ++ be8 f.late ++ be8 f.overridden ++ be8 f.timedOut
            ++ be8 f.superseded ++ be8 f.cancelled ++ be8 f.deferred
      exec (.salvoRead τ) s = read
        (be8 q.state.code ++ be8 (groupCode q.group) ++ be8 q.owner.1 ++ be8 q.outstanding
          ++ be8 q.entries.length ++ (q.entries.flatMap fun e => be16 e.1.1 ++ be16 e.2.1)
          ++ firing))
    ∧ (∀ i : InputNo, Serving s o 0x39 → read8 o.payload 0 = i →
      let r := s.trig i
      exec (.trigRead τ) s = read
        (be8 i.1 ++ be8 r.mode.code ++ opt (r.target.map (·.1)) ++ [r.q] ++ flag r.enable
          ++ flag r.level ++ flag r.raw ++ flag r.interval.isSome))
    ∧ (∀ x : Source, Serving s o 0x3C → read16 o.payload 0 = x →
      exec (.tallyRead τ) s = read
        (be16 (s.tallyOf x).program ++ be16 (s.tallyOf x).preview ++ be8 (s.tallyOf x).record
          ++ be8 (s.tallyOf x).colour.code))
    ∧ (∀ w : WallNo, Serving s o 0x45 → read8 o.payload 0 = w →
      let r := s.wall w
      (read8 o.payload 1 = 0xFF →
        exec (.wallRead τ) s = read
          (be8 (groupCode r.group) ++ be8 r.budget ++ flag r.frozen ++ be8 r.queue.length
            ++ (r.queue.flatMap fun i => be8 i.1) ++ be8 r.line.length
            ++ be8 (r.tiles.toList.countP fun i => i.kind ≠ .invalid)))
      ∧ ∀ i : TileNo, read8 o.payload 1 = i →
        let kind := (s.tile w i).kind
        let binding :=
          match kind with
          | .invalid => be8 0 ++ be16 0xFFFF
          | .dest d => be8 1 ++ be16 d.1
          | .fixed x => be8 2 ++ be16 x.1
        let shown :=
          match kind with
          | .invalid => none
          | .dest d => (s.entry d).source
          | .fixed x => some x
        let named :=
          match shown with
          | none => List.replicate 8 0x20 ++ be8 3
          | some x => (s.nameOf x).toList ++ be8 (s.tallyOf x).colour.code
        let marked :=
          match kind with
          | .dest d =>
            be8 ((if (s.entry d).lock.isSome then 1 else 0) + (if (s.entry d).suspect then 2 else 0)
              + (if (s.entry d).pending.isSome then 4 else 0)) ++ be8 (s.entry d).protect.1
          | _ => be8 0 ++ be8 3
        exec (.wallRead τ) s = read
          (binding ++ flag (s.tile w i).blank ++ flag (decide (i ∈ r.queue))
            ++ opt (r.queue.findIdx? (· = i)) ++ source shown ++ named ++ marked))
    ∧ ∀ c : ChannelNo, Serving s o 0x4C → read8 o.payload 0 = c →
      let r := s.chan c
      let bound :=
        match r.bound with
        | some d => be16 d.1
        | none => be16 0xFFFF
      let queued :=
        match (s.recorder.queue.find? fun q => q.channel = c).map (·.op) with
        | some (.roll _) => be8 1
        | some (.halt _) => be8 2
        | some (.split _ _ _) => be8 3
        | none => be8 0xFF
      exec (.recRead τ) s = read
        (bound ++ be8 r.lead ++ be8 r.state.code ++ opt r.cue ++ be16 r.clip.toNat
          ++ be8 r.marks.length ++ flag r.wrapped ++ queued)

/-- SEEK (R24): from the start, one entry further in the direction given for each examination, until
an entry meets the stop condition, the count (1 to 512) is used up or the end of the map has been
examined. -/
def Obligations.SeekWalksToTheFirstStop : Prop :=
  ∀ (τ : Nat) (s : State) (o : Order) (d : Dest) (test : SeekTest) (down miss : Bool),
    Serving s o 0x16 → read16 o.payload 0 = d →
    read8 o.payload 2 = (if down then 1 else 0) → read8 o.payload 8 = (if miss then 1 else 0) →
    (match test with
      | .sourceIs none => read8 o.payload 5 = 0 ∧ read16 o.payload 6 = 0xFFFF
      | .sourceIs (some x) => read8 o.payload 5 = 0 ∧ read16 o.payload 6 = x
      | .classIs c => read8 o.payload 5 = 1 ∧ read16 o.payload 6 = c.code
      | .locked => read8 o.payload 5 = 2
      | .suspect => read8 o.payload 5 = 3
      | .pending => read8 o.payload 5 = 4) →
    let count := clamp 1 512 (read16 o.payload 3)
    let walked (j : Nat) : Dest := Fin.ofNat 512 (if down then d.1 - j else d.1 + j)
    let meets (e : Entry) : Prop :=
      match test with
      | .sourceIs x => e.source = x
      | .classIs c => e.cls = c
      | .locked => e.lock ≠ none
      | .suspect => e.suspect = true
      | .pending => e.pending ≠ none
    let stops (j : Nat) : Prop := meets (s.entry (walked j)) ↔ miss = false
    ∃ k, k < count ∧ (if down then k ≤ d.1 else d.1 + k < 512) ∧ (∀ j, j < k → ¬ stops j)
      ∧ (stops k ∧ exec (.seek τ) s = .next (s.answered τ o .done
            (be8 1 ++ be16 (walked k).1 ++ be16 (count - (k + 1))))
          ∨ ¬ stops k ∧ (k + 1 = count ∨ (if down then k = d.1 else d.1 + k = 511))
            ∧ exec (.seek τ) s = .next (s.answered τ o .done
              (be8 0 ++ be16 (walked k).1 ++ be16 (count - (k + 1)))))

/-- DEST_SET (R19): a group change is refused IN_USE while the entry holds a take, stands in a salvo
or is bound to a channel that cues or records; otherwise class and group are written, and where the
class changed the counts of the confirmed source move (R110), its colour follows them and a change of
it is announced (R113, R114). -/
def Obligations.DestSetWritesClassAndGroup : Prop :=
  ∀ (τ : Nat) (s : State) (o : Order) (d : Dest) (c : DestClass) (g : Group),
    Serving s o 0x11 → read16 o.payload 0 = d → read8 o.payload 2 = c.code →
    read8 o.payload 3 = groupCode g →
    let e := s.entry d
    let held := e.pending ≠ none ∨ e.next ≠ none
      ∨ (∃ k, (s.slot k).state ≠ .empty ∧ ∃ p ∈ (s.slot k).entries, p.1 = d)
      ∨ ∃ k, (s.chan k).state ≠ .idle ∧ (s.chan k).bound = some d
    (g ≠ e.group ∧ held → exec (.destSet τ) s = .next (s.answered τ o .inUse []))
    ∧ (¬ (g ≠ e.group ∧ held) → ∃ t, exec (.destSet τ) s = .next t
        ∧ Served s t τ o .done [] [] [.map, .tally, .walls]
        ∧ t.map = (s.setEntry d { e with cls := c, group := g }).map
        ∧ (c = e.cls → t.tally = s.tally ∧ t.walls = s.walls)
        ∧ (c ≠ e.cls → TallyMoved s t e.source fun r => { r with
            program := r.program + (if c = .program then 1 else 0)
              - (if e.cls = .program then 1 else 0)
            preview := r.preview + (if c = .preview then 1 else 0)
              - (if e.cls = .preview then 1 else 0) }))

/-- LOCK (R20) writes the panel as lock owner. UNLOCK (R21) removes the owner when the panel is that
owner or an enabled panel of level 0. PROTECT (R22) sets the level requested, or the panel's own where
the request is above it, and the reply carries it. A change is announced: the tiles of the destination
are queued (R12). -/
def Obligations.LockUnlockAndProtectWriteTheEntry : Prop :=
  ∀ (τ : Nat) (s : State) (o : Order) (d : Dest) (p : PanelNo), FanoutLaw s →
    read16 o.payload 0 = d → read8 o.payload 2 = p →
    (Serving s o 0x12 → s.accessCheck p d none = none →
      if (s.entry d).lock = some p then exec (.lock τ) s = .next (s.answered τ o .done [])
      else ∃ t, exec (.lock τ) s = .next t ∧ Served s t τ o .done [] [] [.map, .walls]
        ∧ t.map = (s.setEntry d { s.entry d with lock := some p }).map
        ∧ Queued s t (s.entry d).tiles)
    ∧ (Serving s o 0x13 →
      match (s.entry d).lock with
      | none => exec (.unlock τ) s = .next (s.answered τ o .done [])
      | some q =>
        if q = p ∨ ((s.panel p).enabled = true ∧ (s.panel p).level = 0) then
          ∃ t, exec (.unlock τ) s = .next t ∧ Served s t τ o .done [] [] [.map, .walls]
            ∧ t.map = (s.setEntry d { s.entry d with lock := none }).map
            ∧ Queued s t (s.entry d).tiles
        else exec (.unlock τ) s = .next (s.answered τ o .locked []))
    ∧ ∀ asked : Level, Serving s o 0x14 → read8 o.payload 3 = asked →
      s.accessCheck p d none = none →
      let l := if asked < (s.panel p).level then (s.panel p).level else asked
      if l = (s.entry d).protect then
        exec (.protect τ) s = .next (s.answered τ o .done (be8 l.1))
      else ∃ t, exec (.protect τ) s = .next t ∧ Served s t τ o .done (be8 l.1) [] [.map, .walls]
        ∧ t.map = (s.setEntry d { s.entry d with protect := l }).map ∧ Queued s t (s.entry d).tiles

/-- PANEL_SET (R14): a panel above 31 or a level above 3 is refused; otherwise the whole record is
replaced, with each window bound above 511 clamped to 511, and the reply carries it. PANEL_READ
returns the record, and refuses a panel above 31. -/
def Obligations.PanelSetReplacesTheRecord : Prop :=
  ∀ (τ : Nat) (s : State) (o : Order),
    (Serving s o 0x18 → 32 ≤ read8 o.payload 0 ∨ 4 ≤ read8 o.payload 2 →
      exec (.panelSet τ) s = .next (s.answered τ o .outOfRange []))
    ∧ (∀ (p : PanelNo) (l : Level) (lo1 hi1 lo2 hi2 : Dest), Serving s o 0x18 →
        read8 o.payload 0 = p → read8 o.payload 2 = l →
        lo1.1 = min (read16 o.payload 3) 511 → hi1.1 = min (read16 o.payload 5) 511 →
        lo2.1 = min (read16 o.payload 7) 511 → hi2.1 = min (read16 o.payload 9) 511 →
        let r : Panel := ⟨decide (read8 o.payload 1 ≠ 0), l, lo1, hi1, lo2, hi2⟩
        exec (.panelSet τ) s = .next
          { s.answered τ o .done (be8 p.1 ++ be8 (if r.enabled then 1 else 0) ++ be8 l.1
              ++ be16 lo1.1 ++ be16 hi1.1 ++ be16 lo2.1 ++ be16 hi2.1) with
            panels := (s.setPanel p r).panels })
    ∧ (Serving s o 0x19 → 32 ≤ read8 o.payload 0 →
      exec (.panelRead τ) s = .next (s.answered τ o .outOfRange []))
    ∧ ∀ p : PanelNo, Serving s o 0x19 → read8 o.payload 0 = p →
      let r := s.panel p
      exec (.panelRead τ) s = .next (s.answered τ o .done
        (be8 p.1 ++ be8 (if r.enabled then 1 else 0) ++ be8 r.level.1 ++ be16 r.low1.1
          ++ be16 r.high1.1 ++ be16 r.low2.1 ++ be16 r.high2.1))

/-! ### Reference groups -/

/-- REF_SET: the geometry is stored with T clamped to 1 to floor(F/4) and k_ref to 0 to 7 (R31). A
DISABLED group is enabled: the geometry active, P = F, FREEWHEEL, frame count 0, a boundary at the
moment of the order handed to the followers, REF_STATE START (R32). In any other state the geometry is
staged, in place of one staged before, and nothing else of the group changes (R33). That the notice goes
before the followers act, and MARKS_HIGH after what they raise, with the length it had at its logging, is
the model's choice (notes/assumptions/11.md, 26.md and 40.md). -/
def Obligations.RefSetEnablesOrStages : Prop :=
  ∀ (τ : Nat) (order : FollowerOrder) (s : State) (o : Order) (g : Group) (h l sw tol kref : Nat),
    Serving s o 0x20 → read8 o.payload 0 = groupCode g →
    h = read16 o.payload 1 → l = read16 o.payload 3 → sw = read16 o.payload 5 →
    100 ≤ h → h ≤ 8191 → 20 ≤ l → l ≤ 4095 → sw + 1 ≤ l →
    tol = max 1 (min (l * h / 4) (read32 o.payload 7)) → kref = min 7 (read8 o.payload 11) →
    let q : Geometry := { h := h, l := l, s := sw, tol := tol, kref := kref }
    let reply (staged : Nat) := be8 (groupCode g) ++ (be16 h ++ be16 l ++ be16 sw ++ be32 tol
      ++ be8 kref ++ be8 1 ++ be16 0) ++ be8 staged
    let now := max s.now τ
    ((s.grp g).state = .disabled →
      let r : GroupRec :=
        { state := .freewheel, active := some q, staged := none, period := l * h, frame := 0,
          last := some now }
      let u := (((s.clock τ).beginServing o).setGrp g r).raise (refNotice g .start r)
      let begun : Boundary :=
        { group := g, frame := 0, time := now, geometry := q, applied := false, oldSwitch := sw * h }
      let t := (u.followed begun order).paid
      exec (.refSet τ order) s = .next
        { t with control := t.control.answered o .done (reply 0) })
    ∧ ((s.grp g).state ≠ .disabled →
      exec (.refSet τ order) s = .next
        { s.answered τ o .done (reply 1) with
          groups := (s.setGrp g { s.grp g with staged := some q }).groups })

/-- REF_EDGE: ignored in DISABLED (R41). In LOCKED, with E the last boundary plus P: on time from E − T
to E + T, a boundary at the edge, with P filtered from the interval clamped to floor(F/2) to 2F (R35,
R40); earlier, a boundary with P = F and JUMP (R36); later than E + T, what the edge does after the
expiry of the tolerance (R37, notes/assumptions/9.md). In FREEWHEEL: ACQUIRE and LOCKED, with a boundary
at the edge when t is above T and without one otherwise (R39). That REF_STATE goes before the followers
act, and MARKS_HIGH after what they raise, with the length it had at its logging, is the model's choice
(notes/assumptions/11.md, 26.md and 40.md). -/
def Obligations.ReferenceEdgeIsJudgedByItsGroup : Prop :=
  ∀ (τ : Nat) (g : Group) (order : FollowerOrder) (s : State) (q : Geometry) (b : Nat),
    s.pins.reset = false → s.recorder.high = [] →
    ((s.grp g).state = .disabled →
      exec (.refEdge τ g order) s = .next { s with now := max s.now τ })
    ∧ ((s.grp g).active = some q → (s.grp g).last = some b →
      let r := s.grp g
      let F := q.l * q.h
      let u := s.clock τ
      let follow (x : State × Boundary) := (x.1.followed x.2 order).paid
      (r.state = .locked → u.now + q.tol < b + r.period →
        exec (.refEdge τ g order) s = .next (follow (u.frameBegins g q u.now .locked F (some .jump))))
      ∧ (r.state = .locked → b + r.period ≤ u.now + q.tol → u.now ≤ b + r.period + q.tol →
        exec (.refEdge τ g order) s = .next (follow (u.frameBegins g q u.now .locked
          (r.period + (((max (F / 2) (min (2 * F) (u.now - b)) : Nat) - r.period : Int)
            / (2 ^ q.kref : Nat))).toNat none)))
      ∧ (r.state = .freewheel → q.tol < u.now - b →
        exec (.refEdge τ g order) s = .next (follow (u.frameBegins g q u.now .locked r.period
          (some .acquire))))
      ∧ (r.state = .freewheel → u.now - b ≤ q.tol →
        exec (.refEdge τ g order) s = .next
          ((u.setGrp g { r with state := .locked }).raise
            (refNotice g .acquire { r with state := .locked })))
      ∧ (r.state = .locked → b + r.period + q.tol < u.now →
        ∃ v, exec (.toleranceExpiry g order) s = .next v
          ∧ exec (.refEdge τ g order) s = exec (.refEdge τ g order) v))

/-- TOLERANCE_EXPIRY: a LOCKED group with no edge by E + T takes a boundary there and freewheels, with
LOSS and P kept (R37). FREEWHEEL_BOUNDARY: a freewheeling group takes a boundary at E, with no notice
and P kept (R38). Either may apply a staged geometry (R34). That LOSS is raised before the followers act,
and MARKS_HIGH after what they raise, with the length it had at its logging, is the model's choice
(notes/assumptions/11.md, 26.md and 40.md). -/
def Obligations.ExpiryAndFreewheelTakeTheirBoundaries : Prop :=
  ∀ (g : Group) (order : FollowerOrder) (s : State) (q : Geometry) (b : Nat),
    s.pins.reset = false → s.recorder.high = [] →
    (s.grp g).active = some q → (s.grp g).last = some b →
    let e := b + (s.grp g).period
    let follow (x : State × Boundary) := (x.1.followed x.2 order).paid
    ((s.grp g).state = .locked →
      exec (.toleranceExpiry g order) s = .next
        (follow ((s.clock (e + q.tol)).frameBegins g q (e + q.tol) .freewheel (s.grp g).period
          (some .loss))))
    ∧ ((s.grp g).state = .freewheel →
      exec (.freewheelBoundary g order) s = .next
        (follow ((s.clock e).frameBegins g q e .freewheel (s.grp g).period none)))

/-- A boundary drains each wall of its group that is not frozen and whose line output is empty: up to U
tiles, oldest first, each as an UPDATE of its contents or, INVALID, as a BLANK which clears its blank
pending flag, all stamped with the frame that begins (R127, R128, R129). No other wall is touched. -/
def Obligations.BoundaryDrainsTheWallsOfItsGroup : Prop :=
  ∀ (s : State) (g : Group) (f : FrameNo),
    SameBut [.walls] s (s.wallsAtBoundary g f)
    ∧ ∀ w, let r := s.wall w
      let r1 := (s.wallsAtBoundary g f).wall w
      (r.group ≠ g ∨ r.frozen = true ∨ r.line ≠ [] → r1 = r)
      ∧ (r.group = g → r.frozen = false → r.line = [] →
          r1.group = r.group ∧ r1.budget = r.budget ∧ r1.frozen = false
          ∧ r1.queue = r.queue.drop r.budget
          ∧ r1.line = (r.queue.take r.budget).map (fun i =>
              { update := decide ((s.tile w i).kind ≠ .invalid), wall := w, tile := i,
                contents := s.contents (s.tile w i).kind, frame := f })
          ∧ ∀ i : TileNo, r1.tiles[i] =
              if i ∈ r.queue.take r.budget ∧ (s.tile w i).kind = .invalid then ⟨.invalid, false⟩
              else s.tile w i)

/-! ### Takes -/

/-- LEAD_SET (R63): the four quantities are loaded, k clamped to 7, G to 16383 and C into 1 to 15, and
the reply carries them; the order is never refused for its values. -/
def Obligations.LeadSetLoadsTheFourQuantities : Prop :=
  ∀ (τ : Nat) (s : State) (o : Order), Serving s o 0x22 →
    let lead := read16 o.payload 0
    let k := min (read8 o.payload 2) 7
    let guard := min (read16 o.payload 3) 16383
    let timeout := max 1 (min 15 (read8 o.payload 5))
    exec (.leadSet τ) s = .next
      { s.answered τ o .done (be16 lead ++ be8 k ++ be16 guard ++ be8 timeout) with
        sched := ⟨lead, k, guard, timeout⟩ }

/-- The placement of a take (R48, R49): n is the smallest number of frames for which the switch point
of the landing frame lies Λ + G or more ahead, and at most 42; D = n × F + S − Λ − G is a whole frames
and o ticks, never before the t of the reading, and a is at most n. -/
def Obligations.PlacementLandsAtTheFirstReachableSwitchPoint : Prop :=
  ∀ (s : State) (g : Group) (q : Geometry), (s.grp g).active = some q →
    2000 ≤ q.l * q.h → q.s < q.l → s.sched.lead ≤ 65535 → s.sched.guard ≤ 16383 →
    let F := q.l * q.h
    let S := q.s * q.h
    let t := min (s.since g) (F - 1)
    let margin := s.sched.lead + s.sched.guard
    let pl := s.placement g
    margin + t ≤ pl.n * F + S ∧ (∀ m, m < pl.n → m * F + S < margin + t) ∧ pl.n ≤ 42
      ∧ pl.landing = (s.grp g).frame + BitVec.ofNat 24 pl.n
      ∧ pl.countdown * F + pl.offset + margin = pl.n * F + S ∧ pl.offset < F
      ∧ pl.countdown ≤ pl.n ∧ t ≤ pl.countdown * F + pl.offset

/-- TAKE (R46, R47): a take that passes the access check becomes the pending take in HELD, placed by a
reading of its group, when the entry holds none or one in HELD or WAITING, which ends SUPERSEDED; a
take that is due at once asks for a token in the same event (R49). Behind a take that is SENT or OVERDUE
it becomes the next take, and a next take it finds there ends SUPERSEDED. What an ended take reports is
in `EndedTakeIsReported`. -/
def Obligations.TakeIsPlacedOrQueued : Prop :=
  ∀ (τ : Nat) (s : State) (o : Order) (d : Dest) (x : Source) (p : PanelNo), FanoutLaw s →
    Serving s o 0x10 → read16 o.payload 0 = d → read16 o.payload 2 = x → read8 o.payload 4 = p →
    s.accessCheck p d (some x) = none →
    let e := s.entry d
    let u := (s.clock τ).beginServing o
    let pl := u.placement e.group
    let new : NextTake := ⟨x, p, o.ticket, none⟩
    (∀ old, e.pending = some old → old.phase = .sent ∨ old.phase = .overdue →
      let v := match e.next with
        | none => u
        | some m => u.reportTake d m.ticket m.tag .superseded false
      exec (.take τ) s = .next
        { v with
          map := (s.setEntry d { e with next := some new }).map
          control := v.control.answered o .scheduled
            (be8 (groupCode e.group) ++ be8 1 ++ be24 0xFFFFFF ++ be8 0xFF) })
    ∧ ((∀ old, e.pending = some old → old.phase = .held ∨ old.phase = .waiting) →
      let v := match e.pending with
        | none => u
        | some old => u.reportTake d old.ticket old.tag .superseded old.deferred
      let waiting := if e.pending.any (·.phase = .waiting) then s.link.waiting.filter (· ≠ d)
        else s.link.waiting
      let placed := heldTake new pl
      let sent (k : Token) : Pending :=
        { placed with phase := .sent, token := some k, instant := some u.now }
      ∃ t, exec (.take τ) s = .next t
        ∧ SameBut [.now, .control, .map, .link, .salvos, .walls] s t ∧ t.now = max s.now τ
        ∧ t.control = v.control.answered o .scheduled
            (be8 (groupCode e.group) ++ be8 0 ++ be24 pl.landing.toNat ++ be8 pl.n)
        ∧ t.salvos = v.salvos ∧ Queued s t e.tiles
        ∧ OnlyEntry d s t
        ∧ (¬ (pl.countdown = 0 ∧ pl.offset ≤ u.since e.group) →
            t.entry d = { e with pending := some placed }
            ∧ t.link = { s.link with waiting := waiting })
        ∧ (pl.countdown = 0 → pl.offset ≤ u.since e.group →
            (∀ k, s.token k = .free → (∀ j, j < k → s.token j ≠ .free) →
              t.entry d = { e with pending := some (sent k) }
              ∧ t.link.outbound = s.link.outbound ++ [.routeReq d x k]
              ∧ t.link.waiting = waiting ∧ s.link.Steady t.link
              ∧ ∀ j, t.token j = if j = k then .inUse else s.token j)
            ∧ ((∀ k, s.token k ≠ .free) →
              t.entry d = { e with pending := some { placed with phase := .waiting } }
              ∧ t.link = { s.link with waiting := waiting ++ [d] })))

/-- An ended take is reported (R60): by TAKE_DONE when it has a ticket; in its slot when it has a salvo
tag and no ticket, whose outstanding count falls by one and whose record counts the result and the
deferred flag, and which returns to ARMED with SALVO_DONE when the count reaches 0 (R96); not at all
when it has neither. -/
def Obligations.EndedTakeIsReported : Prop :=
  ∀ (s : State) (d : Dest) (ticket : Word16) (tag : Option SlotNo) (r : TakeResult) (deferred : Bool),
    (ticket ≠ 0 → s.reportTake d ticket tag r deferred = s.raise
      ⟨.takeDone, be16 d.1 ++ be16 ticket.toNat ++ be8 r.code ++ be8 (if deferred then 1 else 0)
        ++ be8 (groupCode (s.entry d).group) ++ be24 (s.grp (s.entry d).group).frame.toNat⟩)
    ∧ s.reportTake d 0 none r deferred = s
    ∧ ∀ k, tag = some k →
      let q := s.slot k
      let counted (f : Firing) : Firing := { f with
        confirmed := f.confirmed + (if r = .confirmed then 1 else 0)
        late := f.late + (if r = .late then 1 else 0)
        overridden := f.overridden + (if r = .overridden then 1 else 0)
        timedOut := f.timedOut + (if r = .timedOut then 1 else 0)
        superseded := f.superseded + (if r = .superseded then 1 else 0)
        cancelled := f.cancelled + (if r = .cancelled then 1 else 0)
        deferred := f.deferred + (if deferred then 1 else 0) }
      let left : Slot :=
        { q with outstanding := q.outstanding - 1, firing := q.firing.map counted }
      s.reportTake d 0 tag r deferred =
        if q.outstanding ≤ 1 then
          (s.setSlot k { left with state := .armed }).raise
            ⟨.salvoDone, be8 k.1 ++ firingRecord left.firing⟩
        else s.setSlot k left

/-- TAKE_FALLS_DUE: the HELD takes whose dispatch countdown is 0 and whose offset the time since the
last boundary has reached (R51) ask the pool in ascending order of destination (R76): the first get the
lowest FREE tokens, enter SENT and send their ROUTE_REQ; the others enter WAITING and join the list.
That the step serves together every take whose offset has been reached by its time, also takes that fell
due at different instants, is the model's reading (notes/assumptions/17.md and 4.md), and that takes due
at the same instant in another event are not merged with these is its choice (notes/assumptions/41.md). -/
def Obligations.TakesThatFallDueShareTheTokens : Prop :=
  ∀ (τ : Nat) (s : State), s.pins.reset = false → s.recorder.high = [] →
    let u := s.clock τ
    let due := (List.finRange 512).filter fun d => (s.entry d).pending.any fun p =>
      p.phase = .held ∧ p.countdown = 0 ∧ p.offset ≤ u.since (s.entry d).group
    let free := (List.finRange 255).filter fun k => s.token k = .free
    ∃ t, exec (.takeFallsDue τ) s = .next t ∧ SameBut [.now, .map, .link] s t ∧ t.now = u.now
      ∧ t.map.dests = s.map.dests ∧ t.map.sources = s.map.sources
      ∧ (∀ d, t.entry d = { s.entry d with
          pending := (s.entry d).pending.map fun p =>
            match (due.zip free).lookup d with
            | some k => { p with phase := .sent, token := some k, instant := some t.now }
            | none => if d ∈ due then { p with phase := .waiting } else p })
      ∧ s.link.Steady t.link
      ∧ (∀ k, t.token k = if k ∈ free.take due.length then .inUse else s.token k)
      ∧ t.link.waiting = s.link.waiting ++ due.drop free.length
      ∧ t.link.outbound = s.link.outbound ++ (due.zip free).filterMap fun p =>
          (s.entry p.1).pending.map fun q => .routeReq p.1 q.source p.2

/-- A boundary treats every take of its group once, by its phase, and no other entry: HELD (R50, R52),
WAITING (R53), SENT (R54), OVERDUE (R55). The takes that R50 dispatches and those that are due at the
boundary ask the pool. A take whose overdue countdown runs out makes its destination suspect and its
token STALE (R78), is marked SUSPECT on each channel that records the destination (R144), and ends
TIMED_OUT, and is reported (R60); the next take is promoted, placed at the boundary, when the link is UP,
and otherwise ends CANCELLED and is reported (R61). That takes which end at one boundary are reported,
queue their tiles and owe their MARKS_HIGH in ascending order of destination, and those of one
destination in ascending order of channel, is the model's choice (notes/assumptions/37.md and 39.md),
and that those due ask after all have been treated is its reading (notes/assumptions/16.md). That takes
of another group due at the same instant in another event are not merged with these is the model's choice
(notes/assumptions/41.md). -/
def Obligations.BoundaryTreatsEachTakeOnce : Prop :=
  ∀ (s : State) (b : Boundary),
    let t := s.takesAtBoundary b
    let ended := (List.finRange 512).filter fun d => (s.entry d).group = b.group
      ∧ (s.entry d).pending.any fun p => p.phase = .overdue ∧ p.overdue.getD 0 ≤ 1
    let v := ended.foldl (fun v d => v.reportTakes d .timedOut (s.link.state != .up)) s
    SameBut [.control, .map, .link, .salvos, .walls, .recorder] s t
    ∧ t.map.dests = s.map.dests ∧ t.map.sources = s.map.sources
    ∧ t.control = v.control ∧ t.salvos = v.salvos
    ∧ (FanoutLaw s → Queued s t (ended.flatMap fun d => (s.entry d).tiles))
    ∧ t.recorder.queue = s.recorder.queue ∧ t.recorder.line = s.recorder.line
    ∧ t.recorder.high = s.recorder.high ++ s.marksHigh (ended.flatMap s.recordersOf)
    ∧ (∀ c, t.chan c =
        match (s.chan c).bound with
        | some d => if c ∈ s.recordersOf d ∧ d ∈ ended then s.suspectChannel d c else s.chan c
        | none => s.chan c)
    ∧ ∀ d,
    let e := s.entry d
    let e1 := t.entry d
    (e.group ≠ b.group ∨ e.pending = none → e1 = e)
    ∧ ∀ p, e.group = b.group → e.pending = some p →
      (p.phase ≠ .overdue ∨ 1 < p.overdue.getD 0 →
        e1 = { e with pending := e1.pending })
      ∧ (p.phase = .waiting → e1.pending = some { p with landing := p.landing - 1 })
      ∧ (p.phase = .sent → p.landing = 0 →
          e1.pending = some { p with phase := .overdue, overdue := some s.sched.timeout })
      ∧ (p.phase = .sent → p.landing ≠ 0 → e1.pending = some { p with landing := p.landing - 1 })
      ∧ (p.phase = .overdue → 1 < p.overdue.getD 0 →
          e1.pending = some { p with overdue := some (p.overdue.getD 0 - 1) })
      ∧ (p.phase = .overdue → p.overdue.getD 0 ≤ 1 →
          e1 = { e with suspect := true, pending := e1.pending, next := none }
          ∧ (e.next = none ∨ s.link.state ≠ .up → e1.pending = none)
          ∧ (∀ n, e.next = some n → s.link.state = .up →
              let pl := s.placement b.group
              if pl.countdown = 0 ∧ pl.offset ≤ s.since b.group then Asked t d (heldTake n pl)
              else e1.pending = some (heldTake n pl))
          ∧ (TokenLaw s → ∀ k, p.token = some k → t.token k = .stale d)
          ∧ ∀ w i, (w, i) ∈ e.tiles → i ∈ (t.wall w).queue)
      ∧ (p.phase = .held → p.countdown = 0 → Asked t d { p with landing := p.landing - 1 })
      ∧ (p.phase = .held → p.countdown ≠ 0 →
          let S := b.geometry.s * b.geometry.h
          let F := b.geometry.l * b.geometry.h
          let offset :=
            if b.applied then
              if p.offset + S < b.oldSwitch then 0 else min (p.offset + S - b.oldSwitch) (F - 1)
            else p.offset
          let p1 := { p with
            countdown := p.countdown - 1, landing := p.landing - 1, offset := offset }
          if p.countdown = 1 ∧ offset ≤ s.since b.group then Asked t d p1
          else e1.pending = some p1)

/-- OVERDUE_ENTRY: a SENT take whose landing frame has ended enters OVERDUE with countdown C (R54).
TAKE_TIMED_OUT: an OVERDUE take whose countdown reaches 0 makes its destination suspect and its token
STALE, is marked SUSPECT on each channel that records the destination (R144), and ends TIMED_OUT and is
reported (R55, R78, R60); the next take is promoted when the link is UP, and otherwise ends CANCELLED and
is reported (R61). The confirmed source is kept. That these rows act by themselves is the model's choice
(notes/assumptions/12.md), and so are the order of MARKS_HIGH, after the reports (26.md), and among
channels (39.md); that a promoted take which is due at once asks for its token in the same event is its
reading of R49 and R61 (18.md). -/
def Obligations.OverdueTakesTimeOut : Prop :=
  ∀ (s : State) (d : Dest) (p : Pending), s.pins.reset = false → s.recorder.high = [] →
    (s.entry d).pending = some p →
    (p.phase = .sent → p.landing = 0 → exec (.overdueEntry d) s = .next
      { s with map := (s.setEntry d { s.entry d with
          pending := some { p with phase := .overdue, overdue := some s.sched.timeout } }).map })
    ∧ (p.phase = .overdue → p.overdue = some 1 →
      let e := s.entry d
      let v := s.reportTakes d .timedOut (s.link.state != .up)
      ∃ t, exec (.takeTimedOut d) s = .next t
        ∧ SameBut [.control, .map, .link, .salvos, .walls, .recorder] s t
        ∧ OnlyEntry d s t
        ∧ t.entry d = { e with
            suspect := true, pending := (t.entry d).pending, next := none }
        ∧ (e.next = none → (t.entry d).pending = none)
        ∧ (∀ n, e.next = some n → s.link.state ≠ .up → (t.entry d).pending = none)
        ∧ (∀ n, e.next = some n → s.link.state = .up →
            let pl := s.placement e.group
            if pl.countdown = 0 ∧ pl.offset ≤ s.since e.group then Asked t d (heldTake n pl)
            else (t.entry d).pending = some (heldTake n pl))
        ∧ (∀ k, p.token = some k → t.token k = .stale d)
        ∧ (∀ c, t.chan c = if c ∈ s.recordersOf d then s.suspectChannel d c else s.chan c)
        ∧ t.recorder.queue = s.recorder.queue ∧ t.recorder.line = s.recorder.line
        ∧ (∀ w i, (w, i) ∈ e.tiles → i ∈ (t.wall w).queue) ∧ (FanoutLaw s → Queued s t e.tiles)
        ∧ t.control = (s.marksHigh (s.recordersOf d)).foldl Control.raise v.control
        ∧ t.salvos = v.salvos)

/-! ### The matrix link -/

/-- CARRIER_GAIN: in DOWN the link enters SURVEYING, sends SURVEY_REQ and raises LINK_STATE (R69).
CARRIER_LOSS: from SURVEYING to DOWN, with LINK_STATE; from UP the departure: LINK_STATE first, then
every pending and next take ends CANCELLED and is reported, in its notice or in its salvo slot, that of
one destination's pending take before that of its next take, every token is FREE, and the waiting list
and the transmit queue are empty (R72, R62, R60, R96). The frames under way on the line are abandoned
(R66). That the destinations are taken in ascending order is the model's choice
(notes/assumptions/10.md). -/
def Obligations.CarrierMovesTheLink : Prop :=
  ∀ (τ : Nat) (s : State), s.pins.reset = false → s.recorder.high = [] →
    let counts := be16 s.map.dests ++ be16 s.map.sources
    let now := max s.now τ
    let lost : Link := { s.link with
      state := .down, queue := [], line := none, receiver := .hunting }
    (s.pins.carrier = false → s.link.state = .down →
      exec (.carrierGain τ) s = .next
        { s with
          now := now
          pins := { s.pins with carrier := true }
          link := Link.begin { s.link with
            state := .surveying, queue := s.link.queue ++ [.surveyReq] }
          control := s.control.raise ⟨.linkState, be8 1 ++ be8 0 ++ be8 0 ++ counts⟩ })
    ∧ (s.pins.carrier = true → s.link.state = .surveying →
      exec (.carrierLoss τ) s = .next
        { s with
          now := now
          pins := { s.pins with carrier := false }
          link := lost
          control := s.control.raise ⟨.linkState, be8 0 ++ be8 1 ++ be8 1 ++ counts⟩ })
    ∧ (s.pins.carrier = true → s.link.state = .up →
      let v := (List.finRange 512).foldl (fun v d => v.reportTakes d .cancelled true)
        (s.raise ⟨.linkState, be8 0 ++ be8 2 ++ be8 1 ++ counts⟩)
      ∃ t, exec (.carrierLoss τ) s = .next t
        ∧ SameBut [.now, .control, .pins, .map, .link, .salvos, .walls] s t ∧ t.now = now
        ∧ t.control = v.control ∧ t.salvos = v.salvos
        ∧ t.pins = { s.pins with carrier := false }
        ∧ t.link = { lost with pool := Vector.replicate 255 .free, waiting := [] }
        ∧ t.map.dests = s.map.dests ∧ t.map.sources = s.map.sources
        ∧ (∀ d, t.entry d = { s.entry d with pending := none, next := none })
        ∧ TilesOfTakesQueued s t)

/-- BLOCK_RESET of LINK (R73): from UP the departure, in which every pending and next take ends CANCELLED
and is reported as in `CarrierMovesTheLink` (R72, R62), from SURVEYING to DOWN, with the cause BLOCK_RESET
(R74); the unmatched-report count becomes 0; with the carrier present a survey starts. A frame on the
line is sent to its end and one under reception is taken to its end. That the destinations are taken in
ascending order is the model's choice (notes/assumptions/10.md). -/
def Obligations.LinkBlockResetRestartsTheLink : Prop :=
  ∀ (τ : Nat) (s : State) (o : Order), Serving s o 0x58 → read8 o.payload 0 = 0 →
    let counts := be16 s.map.dests ++ be16 s.map.sources
    let u := if s.link.state = .down then s
      else s.raise ⟨.linkState, be8 0 ++ be8 s.link.state.code ++ be8 3 ++ counts⟩
    let v := if s.link.state = .up then
        (List.finRange 512).foldl (fun v d => v.reportTakes d .cancelled true) u
      else u
    let w := if s.pins.carrier then v.raise ⟨.linkState, be8 1 ++ be8 0 ++ be8 0 ++ counts⟩ else v
    ∃ t, exec (.blockResetLink τ) s = .next t
      ∧ SameBut [.now, .control, .map, .link, .salvos, .walls] s t ∧ t.now = max s.now τ
      ∧ t.control = w.control.answered o .done (be8 0 ++ be8 0xFF) ∧ t.salvos = w.salvos
      ∧ (s.link.state ≠ .up →
          t.map = s.map ∧ t.walls = s.walls
            ∧ t.link.pool = s.link.pool ∧ t.link.waiting = s.link.waiting)
      ∧ (s.link.state = .up →
          t.map.dests = s.map.dests ∧ t.map.sources = s.map.sources
            ∧ (∀ d, t.entry d = { s.entry d with pending := none, next := none })
            ∧ (∀ k, t.token k = .free) ∧ t.link.waiting = [] ∧ TilesOfTakesQueued s t)
      ∧ t.link.state = (if s.pins.carrier then .surveying else .down)
      ∧ t.link.unmatched = 0 ∧ t.link.receiver = s.link.receiver
      ∧ t.link.lastByte = s.link.lastByte
      ∧ t.link.outbound = s.link.line.toList
          ++ (if s.link.state = .down then s.link.queue else [])
          ++ (if s.pins.carrier then [.surveyReq] else [])

/-- ROUTE_REPORT, matched (R80, R81): the token that the pending take of the reported destination holds
is freed and, where a take waits, granted to the oldest (R77, R53); Λ is filtered with the round trip
less the held ticks (R56, R57); the reported source is written with cause CUT and the suspect flag
cleared (R58); a source that changed splits the clip of each channel that records the destination, with
its SPLIT and its CUT mark (R143); the take ends CONFIRMED, LATE or OVERRIDDEN and is reported (R60); the
next take is promoted, placed with the new Λ (R61). Tokens and takes are matched before
(`EveryStepKeepsTheTokenLaw`). The grant reads Λ as it stood before the report
(notes/assumptions/14.md), and a promoted take that is due at once asks for its token in the same event
(18.md): these are the model's readings. That MARKS_HIGH goes after the report of the take, in ascending
order of channel, is its choice (26.md and 39.md). -/
def Obligations.MatchedReportEndsTheTake : Prop :=
  ∀ (τ : Nat) (s : State) (d : Dest) (x : Source) (k : Token) (held : Word16) (p : Pending), TokenLaw s →
    s.pins.reset = false → s.recorder.high = [] → s.link.receiver = .hunting →
    s.link.state = .up → d.1 < s.map.dests → s.token k = .inUse →
    (s.entry d).pending = some p → p.token = some k → p.inFlight →
    let e := s.entry d
    let now := max s.now τ
    let m : Nat := min 65535 ((now - p.instant.getD now) - held.toNat)
    let lead := ((s.sched.lead : Int) + ((m : Int) - s.sched.lead) / (2 ^ s.sched.k : Nat)).toNat
    let result : TakeResult :=
      if p.source ≠ x then .overridden else if p.phase = .overdue then .late else .confirmed
    let u : State := { s with now := now, sched := { s.sched with lead := lead } }
    let v := s.reportTakes d result false
    let cut : Prop := e.source ≠ some x
    ∃ t, exec (.routeReport τ (BitVec.ofNat 16 d.1) (BitVec.ofNat 16 x.1) (BitVec.ofNat 8 (k.1 + 1))
        held 0)
        s = .next t
      ∧ SameBut [.now, .control, .map, .sched, .link, .salvos, .tally, .walls, .recorder] s t
      ∧ t.now = now ∧ t.sched = u.sched ∧ s.link.Steady t.link
      ∧ t.entry d = { e with
          source := some x, suspect := false, pending := (t.entry d).pending, next := none }
      ∧ (e.next = none → (t.entry d).pending = none)
      ∧ (∀ n, e.next = some n →
          let pl := u.placement e.group
          if pl.countdown = 0 ∧ pl.offset ≤ u.since e.group then Asked t d (heldTake n pl)
          else (t.entry d).pending = some (heldTake n pl))
      ∧ (s.link.waiting = [] → OnlyEntry d s t ∧ (e.next = none → t.token k = .free
          ∧ t.link.waiting = [] ∧ t.link.outbound = s.link.outbound))
      ∧ (∀ c cs q, s.link.waiting = c :: cs → c ≠ d → (s.entry c).pending = some q →
          (∀ b, b ≠ d → b ≠ c → t.entry b = s.entry b)
          ∧ t.entry c = { s.entry c with pending := some { q with
              phase := .sent, token := some k, instant := some now, deferred := true,
              landing := (s.clock τ).grantedLanding (s.entry c).group } }
          ∧ t.token k = .inUse
          ∧ (e.next = none → t.link.waiting = cs
              ∧ t.link.outbound = s.link.outbound ++ [.routeReq c q.source k]))
      ∧ t.control =
          (if cut then s.marksHigh (s.recordersOf d) else []).foldl Control.raise v.control
      ∧ t.salvos = v.salvos
      ∧ (∀ w i, (w, i) ∈ e.tiles → i ∈ (t.wall w).queue)
      ∧ SplitsIssued s t (if cut then [d] else [])
      ∧ ∀ c, t.chan c =
          if cut ∧ c ∈ s.recordersOf d then s.cutChannel d .cut (some x) c else s.chan c

/-- ROUTE_REPORT in UP, not matched (R80, R82, R83, R84): the reported source is written with cause
FOREIGN and the suspect flag cleared; the takes of the destination are left alone; when the source
changed, each channel that records the destination is issued its SPLIT and logs a FOREIGN mark (R143),
and FOREIGN is raised. A report that carries a STALE token recorded for the destination frees it; one
that carries any other nonzero token without the survey flag is counted. A report out of range is
counted and writes nothing (R79). That FOREIGN goes before the MARKS_HIGH of the event, and those in
ascending order of channel, is the model's choice (notes/assumptions/26.md and 39.md); that a token freed
by a stray report is granted before the report is applied is its reading (15.md). -/
def Obligations.UnmatchedReportIsAppliedAsForeign : Prop :=
  ∀ (τ : Nat) (s : State) (dest source : Word16) (token : Byte) (held : Word16) (survey : Byte),
    s.pins.reset = false → s.recorder.high = [] → s.link.receiver = .hunting →
    s.link.state = .up →
    let now := max s.now τ
    let counted := min (s.link.unmatched + 1) 65535
    (512 ≤ dest.toNat ∨ s.map.dests ≤ dest.toNat ∨ 1024 ≤ source.toNat →
      exec (.routeReport τ dest source token held survey) s = .next
        { s with now := now, link := { s.link with unmatched := counted } })
    ∧ ∀ (d : Dest) (x : Source), dest.toNat = d → source.toNat = x → d.1 < s.map.dests →
      let e := s.entry d
      let inUseHere := survey = 0 ∧ ∃ k : Token, token.toNat = k.1 + 1 ∧ s.token k = .inUse
        ∧ ∃ p, e.pending = some p ∧ p.token = some k
      let stray := survey = 0 ∧ ∃ k : Token, token.toNat = k.1 + 1 ∧ s.token k = .stale d
      let cut : Prop := e.source ≠ some x
      ¬ inUseHere →
      ∃ t, exec (.routeReport τ dest source token held survey) s = .next t
        ∧ Happened s t now
            (if e.source = some x then [] else
              ⟨.foreign, be16 d.1 ++ srcField e.source ++ be16 x.1 ++ [token]
                ++ be8 (if survey = 0 ∧ (token? token.toNat).any (s.token · = .stale d) then 1 else 0)
                ++ be8 (groupCode e.group) ++ be24 (s.grp e.group).frame.toNat⟩
                :: s.marksHigh (s.recordersOf d))
            [.map, .link, .tally, .walls, .recorder]
        ∧ t.entry d = { e with
            source := some x, suspect := false, pending := (t.entry d).pending }
        ∧ (¬ stray ∨ s.link.waiting.head? ≠ some d → (t.entry d).pending = e.pending)
        ∧ (¬ stray → OnlyEntry d s t
            ∧ t.link = { s.link with
                unmatched := if survey = 0 ∧ token ≠ 0 then counted else s.link.unmatched })
        ∧ (stray → s.link.waiting = [] → OnlyEntry d s t
            ∧ t.link = { s.link with pool := t.link.pool }
            ∧ ∀ k : Token, t.token k = if token.toNat = k.1 + 1 then .free else s.token k)
        ∧ (∀ (k : Token) c cs q, stray → token.toNat = k.1 + 1 → s.link.waiting = c :: cs →
            (s.entry c).pending = some q →
            (t.entry c).pending = some { q with
                phase := .sent, token := some k, instant := some now, deferred := true,
                landing := (s.clock τ).grantedLanding (s.entry c).group }
              ∧ t.token k = .inUse ∧ t.link.waiting = cs
              ∧ t.link.outbound = s.link.outbound ++ [.routeReq c q.source k]
              ∧ ∀ b, b ≠ d → b ≠ c → t.entry b = s.entry b)
        ∧ (cut → ∀ w i, (w, i) ∈ e.tiles → i ∈ (t.wall w).queue)
        ∧ SplitsIssued s t (if cut then [d] else [])
        ∧ ∀ c, t.chan c =
            if cut ∧ c ∈ s.recordersOf d then s.cutChannel d .foreign (some x) c else s.chan c

/-- ROUTE_REPORT in SURVEYING (R70): applied with cause SURVEY when destination and source name
something, counted otherwise. SURVEY_END in SURVEYING (R71): the declared counts are written, clamped;
every entry at or above the destination count takes NONE; the link is UP; LINK_STATE. A source that
changes splits the clip of each channel that records its destination, with its SPLIT and a mark of cause
SURVEY or LOST (R143); the SPLITs of one event are issued in ascending order of channel, those of several
destinations that SURVEY_END clears among them (R137). SURVEY_END in UP is counted (R68). In DOWN nothing is taken from the line (R66).
That LINK_STATE goes before the MARKS_HIGH of the LOST marks (notes/assumptions/26.md), and that channels
log in ascending order (39.md), is the model's choice. -/
def Obligations.SurveyTeachesTheMap : Prop :=
  ∀ (τ : Nat) (s : State) (dest source : Word16) (token : Byte) (held : Word16) (survey : Byte),
    s.pins.reset = false → s.recorder.high = [] → s.link.receiver = .hunting →
    let now := max s.now τ
    let counted : State :=
      { s with
        now := now, link := { s.link with unmatched := min (s.link.unmatched + 1) 65535 } }
    let report := exec (.routeReport τ dest source token held survey) s
    let surveyEnd := exec (.surveyEnd τ dest source) s
    (s.link.state = .surveying →
      (512 ≤ dest.toNat ∨ 1024 ≤ source.toNat → report = .next counted)
      ∧ (∀ (d : Dest) (x : Source), dest.toNat = d → source.toNat = x →
          let cut : Prop := (s.entry d).source ≠ some x
          ∃ t, report = .next t
            ∧ Happened s t now (if cut then s.marksHigh (s.recordersOf d) else [])
                [.map, .tally, .walls, .recorder]
            ∧ OnlyEntry d s t
            ∧ SplitsIssued s t (if cut then [d] else [])
            ∧ (∀ c, t.chan c =
                if cut ∧ c ∈ s.recordersOf d then s.cutChannel d .survey (some x) c else s.chan c)
            ∧ t.entry d = { s.entry d with source := some x, suspect := false }
            ∧ ((s.entry d).source ≠ some x ∨ (s.entry d).suspect = true →
                ∀ w i, (w, i) ∈ (s.entry d).tiles → i ∈ (t.wall w).queue))
      ∧ let gone := (List.finRange 512).filter fun d =>
            max 1 (min 512 dest.toNat) ≤ d.1 ∧ (s.entry d).source ≠ none
        ∃ t, surveyEnd = .next t
          ∧ Happened s t now
              (⟨.linkState, be8 2 ++ be8 1 ++ be8 2 ++ be16 t.map.dests ++ be16 t.map.sources⟩
                :: s.marksHigh (s.recordersAmong gone))
              [.map, .link, .tally, .walls, .recorder]
          ∧ SplitsIssued s t gone
          ∧ (∀ c, t.chan c =
              match (s.chan c).bound with
              | some d =>
                if c ∈ s.recordersOf d ∧ d ∈ gone then s.cutChannel d .lost none c else s.chan c
              | none => s.chan c)
          ∧ (∀ d ∈ gone, ∀ w i, (w, i) ∈ (s.entry d).tiles → i ∈ (t.wall w).queue)
          ∧ t.map.dests = max 1 (min 512 dest.toNat) ∧ t.map.sources = max 1 (min 1024 source.toNat)
          ∧ t.link = { s.link with state := .up }
          ∧ ∀ d, t.entry d = { s.entry d with
              source := if d.1 < t.map.dests then (s.entry d).source else none })
    ∧ (s.link.state = .up → surveyEnd = .next counted)
    ∧ (s.link.state = .down →
      report = .next { s with now := now } ∧ surveyEnd = .next { s with now := now })

/-- MATRIX_BAD_FRAME, bytes on the matrix line (R68, R153, R167, R174): a frame whose length is out of
range or whose check fails, and a whole frame that is neither a ROUTE_REPORT of 9 bytes nor a SURVEY_END
of 6, add one to the unmatched-report count (R86) and do nothing else. In DOWN the bytes are discarded
(R66). That the row takes any bytes, so that the frame of a ROUTE_REPORT does what that report does and
the frame of a SURVEY_END what that message does, is the model's reading (notes/assumptions/21.md). -/
def Obligations.MatrixFrameIsJudged : Prop :=
  ∀ (τ : Nat) (s : State) (bytes : List Byte), s.pins.reset = false → s.recorder.high = [] →
    s.link.receiver = .hunting →
    (s.link.state = .down →
      exec (.matrixBadFrame τ bytes) s = .next { s with now := max s.now τ })
    ∧ (s.link.state ≠ .down →
        ((∃ n, n < 65536 ∧ ¬ (6 ≤ n ∧ n ≤ 1024) ∧ bytes = 0xB4 :: be16 n)
          ∨ (∃ body c, 6 ≤ body.length ∧ body.length ≤ 1024 ∧ c < 65536
              ∧ c ≠ (crc (be16 body.length ++ body)).toNat
              ∧ bytes = 0xB4 :: be16 body.length ++ body ++ be16 c)
          ∨ ∃ body, 6 ≤ body.length ∧ body.length ≤ 1024 ∧ bytes = frameOf body
              ∧ ¬ (body.head? = some 0x81 ∧ body.length = 9)
              ∧ ¬ (body.head? = some 0x82 ∧ body.length = 6)) →
        exec (.matrixBadFrame τ bytes) s = .next
          { s with
            now := max s.now τ
            link := { s.link with
              lastByte := max s.now τ, unmatched := min (s.link.unmatched + 1) 65535 } })
    ∧ (s.link.state ≠ .down →
        ∀ (dest source : Word16) (token : Byte) (held : Word16) (survey : Byte),
          bytes = frameOf ([0x81, token] ++ be16 dest.toNat ++ be16 source.toNat
            ++ be16 held.toNat ++ [survey]) →
          exec (.matrixBadFrame τ bytes) s = exec (.routeReport τ dest source token held survey)
            { s with link := { s.link with lastByte := max s.now τ } })
    ∧ (s.link.state ≠ .down →
        ∀ (dests sources : Word16) (token : Byte),
          bytes = frameOf ([0x82, token] ++ be16 dests.toNat ++ be16 sources.toNat) →
          exec (.matrixBadFrame τ bytes) s = exec (.surveyEnd τ dests sources)
            { s with link := { s.link with lastByte := max s.now τ } })

/-- The end of a transmission on the matrix line (R67), the recorder line (R137) and a wall line
(R128): what was on the line is gone, and the oldest that waits begins. -/
def Obligations.LinesSendOneThingAtATime : Prop :=
  ∀ (τ : Nat) (s : State), s.pins.reset = false →
    (s.link.line ≠ none → exec (.matrixTxComplete τ) s = .next
      { s with
        now := max s.now τ
        link := { s.link with line := s.link.queue.head?, queue := s.link.queue.tail } })
    ∧ (s.recorder.line ≠ none → exec (.recorderTxComplete τ) s = .next
      { s with
        now := max s.now τ
        recorder := { s.recorder with
          line := s.recorder.queue.head?, queue := s.recorder.queue.tail } })
    ∧ ∀ w, (s.wall w).line ≠ [] → exec (.wallRecordTxComplete τ w) s = .next
      { s with
        now := max s.now τ
        walls := (s.setWall w { s.wall w with line := (s.wall w).line.tail }).walls }

/-! ### Salvos -/

/-- SALVO_OPEN (R88), SALVO_PUT (R89), SALVO_DROP (R90), SALVO_ARM (R91) and SALVO_CLEAR (R92), by the
state of the slot, with their refusals and replies. Nothing but the slot changes. That SALVO_OPEN of an
EMPTY slot leaves its outstanding count and firing record as they stand is the model's reading of R88
(notes/assumptions/32.md). -/
def Obligations.SalvoOrdersBuildTheSlot : Prop :=
  ∀ (τ : Nat) (s : State) (o : Order) (k : SlotNo), read8 o.payload 0 = k →
    let q := s.slot k
    let done (payload : List Byte) (q1 : Slot) : Host.Outcome State Fault Refusal :=
      .next { s.answered τ o .done payload with salvos := (s.setSlot k q1).salvos }
    let refused (v : Verdict) : Host.Outcome State Fault Refusal := .next (s.answered τ o v [])
    (∀ (g : Group) (p : PanelNo), Serving s o 0x30 → read8 o.payload 1 = groupCode g →
        read8 o.payload 2 = p →
        exec (.salvoOpen τ) s =
          match q.state with
          | .empty => done (be8 (groupCode g) ++ be8 p.1 ++ be8 0)
              { q with state := .opened, group := g, owner := p, entries := [] }
          | .armed => done (be8 (groupCode q.group) ++ be8 q.owner.1 ++ be8 q.entries.length)
              { q with state := .opened }
          | .opened => refused .salvoState
          | .firing => refused .salvoState)
    ∧ (∀ (d : Dest) (x : Source), Serving s o 0x31 → read16 o.payload 1 = d →
        read16 o.payload 3 = x →
        exec (.salvoPut τ) s =
          if q.state ≠ .opened then refused .salvoState
          else if (s.entry d).group ≠ q.group then refused .groupMismatch
          else if d ∈ q.entries.map (·.1) then
            done (be8 (q.entries.findIdx (·.1 = d)) ++ be8 q.entries.length)
              { q with entries := q.entries.map fun e => if e.1 = d then (d, x) else e }
          else if 48 ≤ q.entries.length then refused .salvoFull
          else done (be8 q.entries.length ++ be8 (q.entries.length + 1))
              { q with entries := q.entries ++ [(d, x)] })
    ∧ (∀ d : Dest, Serving s o 0x32 → read16 o.payload 1 = d →
        exec (.salvoDrop τ) s =
          if q.state ≠ .opened then refused .salvoState
          else if d ∉ q.entries.map (·.1) then refused .notFound
          else done (be8 (q.entries.filter (·.1 ≠ d)).length)
              { q with entries := q.entries.filter (·.1 ≠ d) })
    ∧ (Serving s o 0x33 → exec (.salvoArm τ) s =
        if q.state = .opened ∧ q.entries ≠ [] then
          done (be8 q.entries.length) { q with state := .armed }
        else refused .salvoState)
    ∧ (Serving s o 0x34 → exec (.salvoClear τ) s =
        match q.state with
        | .empty => refused .done
        | .firing => refused .salvoState
        | .opened => done [] ⟨.empty, .a, 0, [], 0, none⟩
        | .armed => done [] ⟨.empty, .a, 0, [], 0, none⟩)

/-- SALVO_FIRE: the tests of the whole salvo (R93); then each entry is access-checked with the owner
panel, and refused, placed with the fire's one placement, or queued behind a take in flight (R94); a take
that an entry replaces ends SUPERSEDED and is reported, in the order of the entries (R47, R60); the slot is FIRING with the accepted takes outstanding, or stays ARMED when none was, and its record is the
fire's (R95). Takes that are due at once ask the pool after the last entry. That a fire of an ARMED slot
with no entries, which cannot arise, answers SALVO_STATE is the model's choice
(notes/assumptions/30.md). -/
def Obligations.SalvoFireTakesItsEntries : Prop :=
  ∀ (τ : Nat) (s : State) (o : Order) (k : SlotNo), SalvoLaw s → Serving s o 0x35 →
    read8 o.payload 0 = k →
    let q := s.slot k
    let disabled := (s.grp q.group).state = .disabled
    (q.state ≠ .armed → exec (.salvoFire τ) s = .next (s.answered τ o .salvoState []))
    ∧ (q.state = .armed → s.link.state ≠ .up →
        exec (.salvoFire τ) s = .next (s.answered τ o .matrixDown []))
    ∧ (q.state = .armed → s.link.state = .up → disabled →
        exec (.salvoFire τ) s = .next (s.answered τ o .noReference []))
    ∧ (q.state = .armed → s.link.state = .up → ¬ disabled →
      let u := s.clock τ
      let pl := u.placement q.group
      let check (e : Dest × Source) := s.accessCheck q.owner e.1 (some e.2)
      let inFlight (d : Dest) : Bool :=
        (s.entry d).pending.any fun p => p.phase = .sent ∨ p.phase = .overdue
      let accepted := q.entries.filter fun e => (check e).isNone
      let f : Firing :=
        { group := q.group, landing := pl.landing, n := pl.n, accepted := accepted.length
          placed := accepted.countP fun e => !inFlight e.1
          queued := accepted.countP fun e => inFlight e.1
          refused := q.entries.length - accepted.length
          refusal := q.entries.findSome? check
          confirmed := 0, late := 0, overridden := 0, timedOut := 0, superseded := 0
          cancelled := 0, deferred := 0 }
      let superseded (v : State) (d : Dest) : State :=
        if inFlight d then
          match (s.entry d).next with
          | some m => v.reportTake d m.ticket m.tag .superseded false
          | none => v
        else
          match (s.entry d).pending with
          | some p => v.reportTake d p.ticket p.tag .superseded p.deferred
          | none => v
      let v := accepted.foldl (fun v e => superseded v e.1) u
      ∃ t, exec (.salvoFire τ) s = .next t
        ∧ SameBut [.now, .control, .map, .link, .salvos, .walls] s t ∧ t.now = u.now
        ∧ t.control = v.control.answered o
            (if accepted = [] then f.refusal.getD .salvoState else .scheduled)
            (be8 f.accepted ++ be8 f.placed ++ be8 f.queued ++ be8 f.refused
              ++ optField (f.refusal.map Verdict.code) ++ be8 (groupCode q.group)
              ++ be24 pl.landing.toNat)
        ∧ (∀ j, j ≠ k → t.slot j = v.slot j)
        ∧ t.slot k = { q with
            state := if accepted = [] then .armed else .firing
            outstanding := f.accepted, firing := some f }
        ∧ s.link.Steady t.link
        ∧ t.map.dests = s.map.dests ∧ t.map.sources = s.map.sources
        ∧ (∀ d, d ∉ accepted.map (·.1) → t.entry d = s.entry d)
        ∧ ∀ e ∈ accepted,
          let new : NextTake := ⟨e.2, q.owner, 0, some k⟩
          (inFlight e.1 = true → t.entry e.1 = { s.entry e.1 with next := some new })
          ∧ (inFlight e.1 = false →
              t.entry e.1 = { s.entry e.1 with pending := (t.entry e.1).pending }
              ∧ (∀ w i, (w, i) ∈ (s.entry e.1).tiles → i ∈ (t.wall w).queue)
              ∧ if pl.countdown = 0 ∧ pl.offset ≤ u.since q.group then
                  Asked t e.1 (heldTake new pl)
                else (t.entry e.1).pending = some (heldTake new pl)))

/-! ### Trigger inputs -/

/-- TRIG_SET (R104): mode, target, Q and notice enable are written, the target as none in the modes
that have none; the qualified level and an interval under way are kept; the reply carries the record, in
which a low level is sent as 0 and a high one as 1 by the model's choice (notes/assumptions/42.md).
TRIGGER_RAW_CHANGE (R100): away from the qualified level an interval starts with the input's Q, and with
Q = 0 it expires in the same event; back to the qualified level the interval is abandoned. That a change
away from the qualified level with an interval already under way leaves that interval to run, in a state
that no run reaches, is the model's choice (notes/assumptions/43.md). That while the reset pin is held
only the pin's level moves is its reading of R165 (notes/assumptions/33.md). -/
def Obligations.TriggerInputsAreSetAndQualified : Prop :=
  (∀ (τ : Nat) (s : State) (o : Order) (i : InputNo) (mode : TrigMode) (target : Option (Fin 16)),
      Serving s o 0x38 → read8 o.payload 0 = i → read8 o.payload 1 = mode.code →
      (match target with
        | some x => (mode = .fire ∨ mode = .recLevel ∨ mode = .recPulse) ∧ read8 o.payload 2 = x
        | none => mode = .unused ∨ mode = .noticeOnly) →
      let enable := decide (read8 o.payload 4 ≠ 0)
      exec (.trigSet τ) s = .next
        { s.answered τ o .done
            (be8 i.1 ++ be8 mode.code ++ optField (target.map (·.1)) ++ [byteAt o.payload 3]
              ++ be8 (if enable then 1 else 0) ++ be8 (if (s.trig i).level then 1 else 0)) with
          triggers := (s.setTrig i { s.trig i with
            mode := mode, target := target, q := byteAt o.payload 3, enable := enable }).triggers })
  ∧ ∀ (τ : Nat) (s : State) (i : InputNo) (level : Bool), s.recorder.high = [] →
      (s.trig i).raw ≠ level →
      let r : Trigger := { s.trig i with raw := level }
      let now := max s.now τ
      let became (r1 : Trigger) : State := { s with now := now, triggers := (s.setTrig i r1).triggers }
      (s.pins.reset = true → exec (.triggerRawChange τ i level) s = .next (s.setTrig i r))
      ∧ (s.pins.reset = false →
        (level = r.level →
          exec (.triggerRawChange τ i level) s = .next (became { r with interval := none }))
        ∧ (level ≠ r.level → r.interval = none → r.q ≠ 0 →
          exec (.triggerRawChange τ i level) s = .next
            (became { r with interval := some ⟨now, r.q.toNat⟩ }))
        ∧ (level ≠ r.level → r.interval = none → r.q = 0 →
          exec (.triggerRawChange τ i level) s = exec (.qualifiedEdge i)
            (became { r with interval := some ⟨now, 0⟩ }))
        ∧ (level ≠ r.level → r.interval ≠ none →
          exec (.triggerRawChange τ i level) s = .next (became r)))

/-- QUALIFIED_EDGE (R100 to R103): at Q × 27,000 ticks after its start the interval expires, the
qualified level takes the raw level, and the edge acts by its mode: a fire request as SALVO_FIRE makes
it, a start or a stop as REC_START and REC_STOP make them, or nothing; then GPI_EDGE is raised when the
mode is not NONE and the input's enable is on. That it goes after the MARKS_HIGH of the edge is the
model's choice (notes/assumptions/26.md). -/
def Obligations.QualifiedEdgeActsByItsMode : Prop :=
  ∀ (s : State) (i : InputNo) (v : Interval), s.pins.reset = false → s.recorder.high = [] →
    (s.trig i).interval = some v →
    let r := s.trig i
    let u := (s.clock (v.start + v.q * 27000)).setTrig i { r with level := r.raw, interval := none }
    let noCounts := be8 0 ++ be8 0 ++ be8 0 ++ be8 0 ++ be24 0xFFFFFF
    let notified (t : State) (act : Nat) (out : Verdict) (counts : List Byte) :
        Host.Outcome State Fault Refusal :=
      .next (if r.mode ≠ .unused ∧ r.enable = true then
        t.paid.raise ⟨.gpiEdge, be8 i.1 ++ be8 (if r.raw then 0 else 1) ++ be8 r.mode.code
          ++ optField (r.target.map (·.1)) ++ be8 act ++ be8 out.code ++ counts⟩
      else t.paid)
    let fires := r.mode = .fire ∧ r.raw = true
    let starts (c : ChannelNo) := r.raw = true ∧ (r.mode = .recLevel
      ∨ r.mode = .recPulse ∧ (u.chan c).state = .idle)
    let stops (c : ChannelNo) := r.mode = .recLevel ∧ r.raw = false
      ∨ r.mode = .recPulse ∧ r.raw = true ∧ (u.chan c).state ≠ .idle
    (∀ k, r.target = some k → fires → exec (.qualifiedEdge i) s =
      notified (u.fire k).state 1 (u.fire k).verdict
        (match (u.fire k).reached with
          | some f => be8 f.accepted ++ be8 f.placed ++ be8 f.queued ++ be8 f.refused
              ++ be24 f.landing.toNat
          | none => noCounts))
    ∧ (∀ c, r.target = some c → starts c → exec (.qualifiedEdge i) s =
        notified (u.recStart c .trigger).2 2 (u.recStart c .trigger).1 noCounts)
    ∧ (∀ c, r.target = some c → stops c → exec (.qualifiedEdge i) s =
        notified (u.recStop c .trigger) 3 .done noCounts)
    ∧ ((r.target = none ∨ r.mode = .unused ∨ r.mode = .noticeOnly
          ∨ (r.raw = false ∧ r.mode ≠ .recLevel)) →
        exec (.qualifiedEdge i) s = notified u 0 .done noCounts)

/-! ### Walls -/

/-- NAME_SET (R121): the eight characters, each one outside 0x20 to 0x7E as a question mark, are
stored, and every valid tile that shows the source is queued. TILE_SET (R122, R123): the descriptor is
written, with a blank pending exactly when it is INVALID; the pair stands in the list of the tile's
destination and in no other; the tile is queued; a ninth pair is refused FANOUT_FULL. -/
def Obligations.NameSetAndTileSetQueueTheirTiles : Prop :=
  ∀ (τ : Nat) (s : State) (o : Order), FanoutLaw s →
    (∀ x : Source, Serving s o 0x40 → read16 o.payload 0 = x →
      ∃ t, exec (.nameSet τ) s = .next t
        ∧ Served s t τ o .done (t.nameOf x).toList [] [.names, .walls]
        ∧ (∀ j : Fin 8, (t.nameOf x)[j] =
            let b := byteAt o.payload (2 + j.1)
            if 0x20 ≤ b.toNat ∧ b.toNat ≤ 0x7E then b else 0x3F)
        ∧ (∀ y, y ≠ x → t.nameOf y = s.nameOf y)
        ∧ Queued s t ((List.finRange 8).flatMap fun w => (s.showing w x).map fun i => (w, i)))
    ∧ ∀ (w : WallNo) (i : TileNo) (kind : TileKind), Serving s o 0x41 → read8 o.payload 0 = w →
      read8 o.payload 1 = i →
      (match kind with
        | .invalid => read8 o.payload 2 = 0
        | .dest d => read8 o.payload 2 = 1 ∧ read16 o.payload 3 = d
        | .fixed x => read8 o.payload 2 = 2 ∧ read16 o.payload 3 = x) →
      let full := ∃ d, kind = .dest d ∧ (s.tile w i).kind ≠ kind ∧ 8 ≤ (s.entry d).tiles.length
      (full → exec (.tileSet τ) s = .next (s.answered τ o .fanoutFull []))
      ∧ (¬ full → ∃ t, exec (.tileSet τ) s = .next t
          ∧ Served s t τ o .done (tileSetPayload w i ⟨kind, decide (kind = .invalid)⟩) []
              [.map, .walls]
          ∧ (∀ v, v ≠ w → t.wall v = s.wall v)
          ∧ t.wall w = { s.wall w with
              tiles := (s.wall w).tiles.set i.1 ⟨kind, decide (kind = .invalid)⟩ i.2
              queue := if i ∈ (s.wall w).queue then (s.wall w).queue
                else (s.wall w).queue ++ [i] }
          ∧ t.map.dests = s.map.dests ∧ t.map.sources = s.map.sources
          ∧ ∀ d, t.entry d = { s.entry d with tiles := (t.entry d).tiles }
            ∧ ∀ p, p ∈ (t.entry d).tiles ↔
              (p ≠ (w, i) ∧ p ∈ (s.entry d).tiles) ∨ (p = (w, i) ∧ kind = .dest d))

/-- WALL_FREEZE (R130), WALL_THAW, which queues every valid tile behind those queued (R131), and
WALL_SET, with U clamped to 1 to 16 (R132). -/
def Obligations.WallOrdersFreezeThawAndSet : Prop :=
  ∀ (τ : Nat) (s : State) (o : Order) (w : WallNo), read8 o.payload 0 = w →
    let r := s.wall w
    let done (payload : List Byte) (r1 : Wall) : Host.Outcome State Fault Refusal :=
      .next { s.answered τ o .done payload with walls := (s.setWall w r1).walls }
    (Serving s o 0x42 →
      exec (.wallFreeze τ) s = done (be8 r.queue.length) { r with frozen := true })
    ∧ (Serving s o 0x43 →
        let queue := r.queue ++ (List.finRange 64).filter fun i =>
          (s.tile w i).kind ≠ .invalid ∧ i ∉ r.queue
        exec (.wallThaw τ) s = done (be8 queue.length) { r with frozen := false, queue := queue })
    ∧ ∀ g, Serving s o 0x44 → read8 o.payload 1 = groupCode g →
        let u := max 1 (min 16 (read8 o.payload 2))
        exec (.wallSet τ) s = done (be8 (groupCode g) ++ be8 u) { r with group := g, budget := u }

/-! ### Recorders -/

/-- A command issued on the recorder line (R137): appended when the queue holds none for its channel,
and then begun when the line is idle; otherwise merged in place as the table of R137 says. In the
pairings that the table does not list, which do not arise (`OwedCommandsFit`), the issued command stands
in place: that is the model's choice (notes/assumptions/25.md). -/
def Obligations.IssuedCommandsAreMerged : Prop :=
  ∀ (r : Recorder) (c : ChannelNo) (op : RecOp) (g : Group) (f : FrameNo),
    let inPlace (new : RecOp) : Recorder :=
      { r with queue := r.queue.map fun x => if x.channel = c then ⟨c, new⟩ else x }
    ((∀ x ∈ r.queue, x.channel ≠ c) →
      (r.issue c op g f).outbound = r.outbound ++ [⟨c, op⟩]
        ∧ (r.issue c op g f).channels = r.channels
        ∧ (r.line = none → r.queue = [] → (r.issue c op g f).line = some ⟨c, op⟩))
    ∧ ∀ old, (r.queue.find? fun x => x.channel = c) = some ⟨c, old⟩ →
      (∀ c1 c2 g2 f2, old = .roll c1 → op = .split c2 g2 f2 → r.issue c op g f = inPlace (.roll c2))
      ∧ (∀ c1 c2, old = .roll c1 → op = .halt c2 →
          r.issue c op g f = { r with queue := r.queue.filter (·.channel ≠ c) })
      ∧ (∀ c1 g1 f1 c2 g2 f2, old = .split c1 g1 f1 → op = .split c2 g2 f2 →
          r.issue c op g f = inPlace op)
      ∧ (∀ c1 g1 f1 c2, old = .split c1 g1 f1 → op = .halt c2 → r.issue c op g f = inPlace op)
      ∧ (∀ c1 c2, old = .halt c1 → op = .roll c2 → r.issue c op g f = inPlace (.split c2 g f))
      ∧ ((∃ c1 c2, old = .roll c1 ∧ op = .roll c2) ∨ (∃ c1 g1 f1 c2, old = .split c1 g1 f1 ∧ op = .roll c2)
          ∨ (∃ c1 c2 g2 f2, old = .halt c1 ∧ op = .split c2 g2 f2)
          ∨ (∃ c1 c2, old = .halt c1 ∧ op = .halt c2) → r.issue c op g f = inPlace op)

/-- REC_BIND (R139): REC_ACTIVE for a channel that is not IDLE, otherwise the binding and the lead,
clamped to 15, are written. REC_MARKS (R147): up to max of the oldest marks, max clamped into 1 to 8,
are returned and removed, and the wrapped flag is cleared. -/
def Obligations.RecBindAndRecMarks : Prop :=
  ∀ (τ : Nat) (s : State) (o : Order) (c : ChannelNo), read8 o.payload 0 = c →
    let r := s.chan c
    let done (payload : List Byte) (r1 : Channel) : Host.Outcome State Fault Refusal :=
      .next { s.answered τ o .done payload with recorder := (s.setChan c r1).recorder }
    (∀ bound : Option Dest, Serving s o 0x48 →
      read16 o.payload 1 = (match bound with
        | none => 0xFFFF
        | some d => d.1) →
      let lead := min (read8 o.payload 3) 15
      exec (.recBind τ) s =
        if r.state ≠ .idle then .next (s.answered τ o .recActive [])
        else done (destField bound ++ be8 lead) { r with bound := bound, lead := lead })
    ∧ (Serving s o 0x4B →
        let n := max 1 (min 8 (read8 o.payload 1))
        exec (.recMarks τ) s =
          done (be8 (if r.wrapped then 1 else 0) ++ be8 (r.marks.length - n)
              ++ be8 (r.marks.take n).length ++ (r.marks.take n).flatMap markRecord)
            { r with marks := r.marks.drop n, wrapped := false })

/-- REC_START (R140): UNBOUND and REC_ACTIVE refuse it; otherwise the clip number rises by one, ROLL is
issued, and the channel cues for its lead or, with lead 0, enters RECORDING as at the end of a cue
(R141): a START mark, one record count (R111) and REC_STATE, before a MARKS_HIGH that the mark owes
(R146). -/
def Obligations.RecStartRollsAndCuesOrRecords : Prop :=
  ∀ (τ : Nat) (s : State) (o : Order) (c : ChannelNo), Serving s o 0x49 → read8 o.payload 0 = c →
    let r := s.chan c
    let clip := r.clip + 1
    (r.bound = none → exec (.recStart τ) s = .next (s.answered τ o .unbound []))
    ∧ (r.bound ≠ none → r.state ≠ .idle →
        exec (.recStart τ) s = .next (s.answered τ o .recActive []))
    ∧ ∀ d, r.bound = some d → r.state = .idle →
      let g := (s.entry d).group
      let f := s.stamp g
      let rolled := s.recorder.issue c (.roll clip) g f
      let notice (after : RecState) := recNotice c .idle after .order clip (some d) g f
      (r.lead ≠ 0 → ∃ t, exec (.recStart τ) s = .next t
        ∧ Served s t τ o .done (be16 clip.toNat ++ be8 1 ++ be8 r.lead) [notice .cueing] [.recorder]
        ∧ t.recorder.queue = rolled.queue ∧ t.recorder.line = rolled.line
        ∧ t.chan c = { r with clip := clip, state := .cueing, cue := some r.lead }
        ∧ ∀ b, b ≠ c → t.chan b = s.chan b)
      ∧ (r.lead = 0 → ∃ t, exec (.recStart τ) s = .next t
        ∧ Served s t τ o .done (be16 clip.toNat ++ be8 2 ++ be8 0)
            (notice .recording ::
              if r.marks.length = 23 then [⟨.marksHigh, be8 c.1 ++ be8 24 ++
                be8 (if r.wrapped then 1 else 0)⟩] else [])
            [.tally, .walls, .recorder]
        ∧ TallyMoved s t (s.entry d).source (fun x => { x with record := x.record + 1 })
        ∧ t.recorder.queue = rolled.queue ∧ t.recorder.line = rolled.line
        ∧ t.chan c = Channel.log { r with clip := clip, state := .recording, cue := none }
            ⟨.start, g, f, clip, none, some (s.entry d).source⟩
        ∧ ∀ b, b ≠ c → t.chan b = s.chan b)

/-- REC_STOP (R142): IDLE, nothing; CUEING, the channel enters IDLE, HALT is issued, REC_STATE;
RECORDING, a STOP mark is logged, the record count is given back (R112), HALT is issued, REC_STATE. -/
def Obligations.RecStopHaltsTheChannel : Prop :=
  ∀ (τ : Nat) (s : State) (o : Order) (c : ChannelNo), Serving s o 0x4A → read8 o.payload 0 = c →
    let r := s.chan c
    let halted := s.recorder.issue c (.halt r.clip) .a 0
    (r.state = .idle → exec (.recStop τ) s = .next (s.answered τ o .done []))
    ∧ ∀ d, r.bound = some d →
      let g := (s.entry d).group
      let f := s.stamp g
      let notice := recNotice c r.state .idle .order r.clip (some d) g f
      (r.state = .cueing → ∃ t, exec (.recStop τ) s = .next t
        ∧ Served s t τ o .done [] [notice] [.recorder]
        ∧ t.recorder.queue = halted.queue ∧ t.recorder.line = halted.line
        ∧ t.chan c = { r with state := .idle, cue := none } ∧ ∀ b, b ≠ c → t.chan b = s.chan b)
      ∧ (r.state = .recording → ∃ t, exec (.recStop τ) s = .next t
        ∧ Served s t τ o .done []
            (notice :: if r.marks.length = 23 then [⟨.marksHigh, be8 c.1 ++ be8 24 ++
              be8 (if r.wrapped then 1 else 0)⟩] else [])
            [.tally, .walls, .recorder]
        ∧ TallyMoved s t (s.entry d).source (fun x => { x with record := x.record - 1 })
        ∧ t.recorder.queue = halted.queue ∧ t.recorder.line = halted.line
        ∧ t.chan c = Channel.log { r with state := .idle }
            ⟨.stop, g, f, r.clip, some (s.entry d).source, none⟩
        ∧ ∀ b, b ≠ c → t.chan b = s.chan b)

/-- The cue (R141): a boundary lowers the countdown of each cueing channel of its group, and one that
it brings to 0 enters RECORDING, with its START mark, its record count (R111) and REC_STATE with cause
CUE_END; no command is issued. CUE_END is that entry of one channel. That channels whose cues end at one
boundary raise their notices in ascending order (notes/assumptions/38.md), that MARKS_HIGH goes after
REC_STATE and other notices (26.md) and carries the length at its logging (40.md), and that the row acts
by itself (12.md) is the model's choice. -/
def Obligations.CueEndsInRecording : Prop :=
  (∀ (s : State) (g : Group),
    let t := s.recordersAtBoundary g
    let ended := (List.finRange 16).filter fun c => (s.chan c).state = .cueing
      ∧ ((s.chan c).bound.any fun d => (s.entry d).group = g) ∧ ((s.chan c).cue.any fun n => n ≤ 1)
    SameBut [.control, .tally, .walls, .recorder] s t
    ∧ t.control = (ended.map fun c => recNotice c .cueing .recording .cueEnd (s.chan c).clip
        (s.chan c).bound g (s.stamp g)).foldl Control.raise s.control
    ∧ t.recorder.queue = s.recorder.queue ∧ t.recorder.line = s.recorder.line
    ∧ t.recorder.high = s.recorder.high ++ s.marksHigh ended
    ∧ (∀ x, let r := s.tallyOf x
        let n := ended.countP fun c => s.chanSource c = some x
        let r1 : Tally := { r with record := r.record + n }
        t.tallyOf x = (if n = 0 then r else { r1 with colour := colourOf r1 })
          ∧ (n ≠ 0 → colourOf r1 ≠ r.colour → ∀ w, ∀ i ∈ s.showing w x, i ∈ (t.wall w).queue))
    ∧ ∀ c,
    let r := s.chan c
    let r1 := t.chan c
    (r.state ≠ .cueing ∨ (∀ d, r.bound = some d → (s.entry d).group ≠ g) → r1 = r)
    ∧ ∀ d n, r.state = .cueing → r.bound = some d → (s.entry d).group = g → r.cue = some n →
        (1 < n → r1 = { r with cue := some (n - 1) })
        ∧ (n ≤ 1 → r1 = Channel.log { r with state := .recording, cue := none }
            ⟨.start, g, s.stamp g, r.clip, none, some (s.entry d).source⟩))
  ∧ ∀ (s : State) (c : ChannelNo) (d : Dest), s.pins.reset = false → s.recorder.high = [] →
    let r := s.chan c
    let g := (s.entry d).group
    r.state = .cueing → r.cue = some 1 → r.bound = some d →
    ∃ t, exec (.cueEnd c) s = .next t
      ∧ Happened s t s.now
          (recNotice c .cueing .recording .cueEnd r.clip (some d) g (s.stamp g) ::
            if r.marks.length = 23 then [⟨.marksHigh, be8 c.1 ++ be8 24 ++
              be8 (if r.wrapped then 1 else 0)⟩] else [])
          [.tally, .walls, .recorder]
      ∧ TallyMoved s t (s.entry d).source (fun x => { x with record := x.record + 1 })
      ∧ t.recorder.queue = s.recorder.queue ∧ t.recorder.line = s.recorder.line
      ∧ t.chan c = Channel.log { r with state := .recording, cue := none }
          ⟨.start, g, s.stamp g, r.clip, none, some (s.entry d).source⟩
      ∧ ∀ b, b ≠ c → t.chan b = s.chan b

/-! ### Block resets (R163) -/

/-- BLOCK_RESET of SALVOS (R98): every slot at its reset values, every salvo tag removed, the takes run
on. Of PANELS (R13, R15): the panel table at its reset values. Of WALLS (R134), one or all: the tiles
INVALID with no blank pending, their pairs out of every list, the queue empty, the line output emptied
after the record under way, not frozen; the group and U are kept. -/
def Obligations.BlockResetsOfSalvosPanelsAndWalls : Prop :=
  ∀ (τ : Nat) (s : State) (o : Order), Serving s o 0x58 →
    let block := read8 o.payload 0
    let wall := read8 o.payload 1
    (block = 1 → exec (.blockResetSalvos τ) s = .next
      { s.answered τ o .done (be8 1 ++ be8 0xFF) with
        salvos := Vector.replicate 16 ⟨.empty, .a, 0, [], 0, none⟩
        map := { s.map with entries := s.map.entries.map fun e => { e with
          pending := e.pending.map fun p => { p with tag := none }
          next := e.next.map fun n => { n with tag := none } } } })
    ∧ (block = 4 → exec (.blockResetPanels τ) s = .next
      { s.answered τ o .done (be8 4 ++ be8 0xFF) with
        panels := (Vector.replicate 32 ⟨false, 3, 511, 0, 511, 0⟩).set 0 ⟨true, 0, 0, 511, 511, 0⟩ })
    ∧ (block = 2 → wall < 8 ∨ wall = 0xFF → ∃ t, exec (.blockResetWalls τ) s = .next t
        ∧ Served s t τ o .done (be8 2 ++ be8 wall) [] [.map, .walls]
        ∧ t.map.dests = s.map.dests ∧ t.map.sources = s.map.sources
        ∧ (∀ w, t.wall w = if wall = 0xFF ∨ wall = w then
            { s.wall w with
              frozen := false, queue := [], line := (s.wall w).line.take 1
              tiles := Vector.replicate 64 ⟨.invalid, false⟩ }
            else s.wall w)
        ∧ ∀ d, t.entry d = { s.entry d with
            tiles := (s.entry d).tiles.filter fun p => ¬ (wall = 0xFF ∨ wall = p.1) })

/-- BLOCK_RESET of RECORDERS (R150): every channel that cues or records enters IDLE, with its HALT
issued and REC_STATE raised, in ascending order; one record count is given back for each that recorded
(R112), then colours are compared (R113); every mark list is emptied. -/
def Obligations.RecordersBlockResetIdlesEveryChannel : Prop :=
  ∀ (τ : Nat) (s : State) (o : Order), Serving s o 0x58 → read8 o.payload 0 = 3 →
    let active := (List.finRange 16).filter fun c => (s.chan c).state ≠ .idle
    let halted := active.foldl (fun r c => r.issue c (.halt (s.chan c).clip) .a 0) s.recorder
    ∃ t, exec (.blockResetRecorders τ) s = .next t
      ∧ Served s t τ o .done (be8 3 ++ be8 0xFF)
          (active.map fun c => recNotice c (s.chan c).state .idle .blockReset (s.chan c).clip
            (s.chan c).bound (s.chanGroup c) (s.stamp (s.chanGroup c)))
          [.tally, .walls, .recorder]
      ∧ (∀ c, t.chan c = { s.chan c with
          state := .idle, cue := if (s.chan c).state = .idle then (s.chan c).cue else none
          marks := [], wrapped := false })
      ∧ t.recorder.queue = halted.queue ∧ t.recorder.line = halted.line
      ∧ ∀ x, let r := s.tallyOf x
        let r1 : Tally := { r with record := r.record - s.recording x }
        t.tallyOf x = (if s.recording x = 0 then r else { r1 with colour := colourOf r1 })
          ∧ (s.recording x ≠ 0 → colourOf r1 ≠ r.colour →
              ∀ w, ∀ i ∈ s.showing w x, i ∈ (t.wall w).queue)

/-! ### The laws of the device -/

/-- Every step keeps the laws of tally (R107, R108): the counts are what the map and the recorders
give, and the colours are what the counts give. -/
def Obligations.EveryStepKeepsTheTallyLaw : Prop :=
  ∀ s t : State, TallyLaw s → step s = .next t → TallyLaw t

/-- Every step keeps tokens and takes matched (R75, R76, R77): each token IN_USE belongs to exactly one
SENT or OVERDUE take, the waiting list names the takes in WAITING, and a next take stands only behind a
take that is SENT or OVERDUE (R6). -/
def Obligations.EveryStepKeepsTheTokenLaw : Prop :=
  ∀ s t : State, TokenLaw s → step s = .next t → TokenLaw t

/-- While the matrix link is not UP, no destination has a pending or next take and no token is IN_USE
or STALE (R72): every step keeps that, in a part that holds its reset values while the pin is asserted
(`EveryStepKeepsThePartHeldAtReset`). -/
def Obligations.EveryStepKeepsTheQuietOfALinkThatIsNotUp : Prop :=
  ∀ s t : State, HeldAtReset s → QuietUnlessUp s → step s = .next t → QuietUnlessUp t

/-- Every step keeps the fan-out lists (R7, R123): ordered, at most 8 pairs long, and holding exactly
the tiles bound to their destination; and with them the update queues (R119, R124): each tile at most
once, and only tiles that are valid or have blank pending. -/
def Obligations.EveryStepKeepsTheFanoutListsAndUpdateQueues : Prop :=
  ∀ s t : State, FanoutLaw s → step s = .next t →
    FanoutLaw t ∧ (UpdateQueueLaw s → UpdateQueueLaw t)

/-- Every step keeps the salvo store (R89, R96): its lists, and outstanding counts that equal the
number of takes tagged with the slot. -/
def Obligations.EveryStepKeepsTheSalvoStore : Prop :=
  ∀ s t : State, SalvoLaw s → step s = .next t → SalvoLaw t
end

