-- ==== Sys2Proof/Laws/State.lean ====
section
/-! SUPPORT. What each update of one record of the state leaves in every part of the state, and the
laws of reading and writing one numbered record. -/

namespace Sys2Proof.Machine

/-! ### The parts an update leaves alone -/

@[simp] theorem State.setEntry_pending (s : State) (d : Dest) (e : Entry) :
    (s.setEntry d e).pending = s.pending := rfl
@[simp] theorem State.setEntry_now (s : State) (d : Dest) (e : Entry) :
    (s.setEntry d e).now = s.now := rfl
@[simp] theorem State.setEntry_pins (s : State) (d : Dest) (e : Entry) :
    (s.setEntry d e).pins = s.pins := rfl
@[simp] theorem State.setEntry_control (s : State) (d : Dest) (e : Entry) :
    (s.setEntry d e).control = s.control := rfl
@[simp] theorem State.setEntry_panels (s : State) (d : Dest) (e : Entry) :
    (s.setEntry d e).panels = s.panels := rfl
@[simp] theorem State.setEntry_groups (s : State) (d : Dest) (e : Entry) :
    (s.setEntry d e).groups = s.groups := rfl
@[simp] theorem State.setEntry_sched (s : State) (d : Dest) (e : Entry) :
    (s.setEntry d e).sched = s.sched := rfl
@[simp] theorem State.setEntry_link (s : State) (d : Dest) (e : Entry) :
    (s.setEntry d e).link = s.link := rfl
@[simp] theorem State.setEntry_salvos (s : State) (d : Dest) (e : Entry) :
    (s.setEntry d e).salvos = s.salvos := rfl
@[simp] theorem State.setEntry_triggers (s : State) (d : Dest) (e : Entry) :
    (s.setEntry d e).triggers = s.triggers := rfl
@[simp] theorem State.setEntry_tally (s : State) (d : Dest) (e : Entry) :
    (s.setEntry d e).tally = s.tally := rfl
@[simp] theorem State.setEntry_walls (s : State) (d : Dest) (e : Entry) :
    (s.setEntry d e).walls = s.walls := rfl
@[simp] theorem State.setEntry_names (s : State) (d : Dest) (e : Entry) :
    (s.setEntry d e).names = s.names := rfl
@[simp] theorem State.setEntry_recorder (s : State) (d : Dest) (e : Entry) :
    (s.setEntry d e).recorder = s.recorder := rfl
@[simp] theorem State.setPanel_pending (s : State) (p : PanelNo) (r : Panel) :
    (s.setPanel p r).pending = s.pending := rfl
@[simp] theorem State.setPanel_now (s : State) (p : PanelNo) (r : Panel) :
    (s.setPanel p r).now = s.now := rfl
@[simp] theorem State.setPanel_pins (s : State) (p : PanelNo) (r : Panel) :
    (s.setPanel p r).pins = s.pins := rfl
@[simp] theorem State.setPanel_control (s : State) (p : PanelNo) (r : Panel) :
    (s.setPanel p r).control = s.control := rfl
@[simp] theorem State.setPanel_map (s : State) (p : PanelNo) (r : Panel) :
    (s.setPanel p r).map = s.map := rfl
@[simp] theorem State.setPanel_groups (s : State) (p : PanelNo) (r : Panel) :
    (s.setPanel p r).groups = s.groups := rfl
@[simp] theorem State.setPanel_sched (s : State) (p : PanelNo) (r : Panel) :
    (s.setPanel p r).sched = s.sched := rfl
@[simp] theorem State.setPanel_link (s : State) (p : PanelNo) (r : Panel) :
    (s.setPanel p r).link = s.link := rfl
@[simp] theorem State.setPanel_salvos (s : State) (p : PanelNo) (r : Panel) :
    (s.setPanel p r).salvos = s.salvos := rfl
@[simp] theorem State.setPanel_triggers (s : State) (p : PanelNo) (r : Panel) :
    (s.setPanel p r).triggers = s.triggers := rfl
@[simp] theorem State.setPanel_tally (s : State) (p : PanelNo) (r : Panel) :
    (s.setPanel p r).tally = s.tally := rfl
@[simp] theorem State.setPanel_walls (s : State) (p : PanelNo) (r : Panel) :
    (s.setPanel p r).walls = s.walls := rfl
@[simp] theorem State.setPanel_names (s : State) (p : PanelNo) (r : Panel) :
    (s.setPanel p r).names = s.names := rfl
@[simp] theorem State.setPanel_recorder (s : State) (p : PanelNo) (r : Panel) :
    (s.setPanel p r).recorder = s.recorder := rfl
@[simp] theorem State.setGrp_pending (s : State) (g : Group) (r : GroupRec) :
    (s.setGrp g r).pending = s.pending := rfl
@[simp] theorem State.setGrp_now (s : State) (g : Group) (r : GroupRec) :
    (s.setGrp g r).now = s.now := rfl
@[simp] theorem State.setGrp_pins (s : State) (g : Group) (r : GroupRec) :
    (s.setGrp g r).pins = s.pins := rfl
@[simp] theorem State.setGrp_control (s : State) (g : Group) (r : GroupRec) :
    (s.setGrp g r).control = s.control := rfl
@[simp] theorem State.setGrp_map (s : State) (g : Group) (r : GroupRec) :
    (s.setGrp g r).map = s.map := rfl
@[simp] theorem State.setGrp_panels (s : State) (g : Group) (r : GroupRec) :
    (s.setGrp g r).panels = s.panels := rfl
@[simp] theorem State.setGrp_sched (s : State) (g : Group) (r : GroupRec) :
    (s.setGrp g r).sched = s.sched := rfl
@[simp] theorem State.setGrp_link (s : State) (g : Group) (r : GroupRec) :
    (s.setGrp g r).link = s.link := rfl
@[simp] theorem State.setGrp_salvos (s : State) (g : Group) (r : GroupRec) :
    (s.setGrp g r).salvos = s.salvos := rfl
@[simp] theorem State.setGrp_triggers (s : State) (g : Group) (r : GroupRec) :
    (s.setGrp g r).triggers = s.triggers := rfl
@[simp] theorem State.setGrp_tally (s : State) (g : Group) (r : GroupRec) :
    (s.setGrp g r).tally = s.tally := rfl
@[simp] theorem State.setGrp_walls (s : State) (g : Group) (r : GroupRec) :
    (s.setGrp g r).walls = s.walls := rfl
@[simp] theorem State.setGrp_names (s : State) (g : Group) (r : GroupRec) :
    (s.setGrp g r).names = s.names := rfl
@[simp] theorem State.setGrp_recorder (s : State) (g : Group) (r : GroupRec) :
    (s.setGrp g r).recorder = s.recorder := rfl
@[simp] theorem State.setToken_pending (s : State) (t : Token) (c : TokenState) :
    (s.setToken t c).pending = s.pending := rfl
@[simp] theorem State.setToken_now (s : State) (t : Token) (c : TokenState) :
    (s.setToken t c).now = s.now := rfl
@[simp] theorem State.setToken_pins (s : State) (t : Token) (c : TokenState) :
    (s.setToken t c).pins = s.pins := rfl
@[simp] theorem State.setToken_control (s : State) (t : Token) (c : TokenState) :
    (s.setToken t c).control = s.control := rfl
@[simp] theorem State.setToken_map (s : State) (t : Token) (c : TokenState) :
    (s.setToken t c).map = s.map := rfl
@[simp] theorem State.setToken_panels (s : State) (t : Token) (c : TokenState) :
    (s.setToken t c).panels = s.panels := rfl
@[simp] theorem State.setToken_groups (s : State) (t : Token) (c : TokenState) :
    (s.setToken t c).groups = s.groups := rfl
@[simp] theorem State.setToken_sched (s : State) (t : Token) (c : TokenState) :
    (s.setToken t c).sched = s.sched := rfl
@[simp] theorem State.setToken_salvos (s : State) (t : Token) (c : TokenState) :
    (s.setToken t c).salvos = s.salvos := rfl
@[simp] theorem State.setToken_triggers (s : State) (t : Token) (c : TokenState) :
    (s.setToken t c).triggers = s.triggers := rfl
@[simp] theorem State.setToken_tally (s : State) (t : Token) (c : TokenState) :
    (s.setToken t c).tally = s.tally := rfl
@[simp] theorem State.setToken_walls (s : State) (t : Token) (c : TokenState) :
    (s.setToken t c).walls = s.walls := rfl
@[simp] theorem State.setToken_names (s : State) (t : Token) (c : TokenState) :
    (s.setToken t c).names = s.names := rfl
@[simp] theorem State.setToken_recorder (s : State) (t : Token) (c : TokenState) :
    (s.setToken t c).recorder = s.recorder := rfl
@[simp] theorem State.setSlot_pending (s : State) (k : SlotNo) (r : Slot) :
    (s.setSlot k r).pending = s.pending := rfl
@[simp] theorem State.setSlot_now (s : State) (k : SlotNo) (r : Slot) :
    (s.setSlot k r).now = s.now := rfl
@[simp] theorem State.setSlot_pins (s : State) (k : SlotNo) (r : Slot) :
    (s.setSlot k r).pins = s.pins := rfl
@[simp] theorem State.setSlot_control (s : State) (k : SlotNo) (r : Slot) :
    (s.setSlot k r).control = s.control := rfl
@[simp] theorem State.setSlot_map (s : State) (k : SlotNo) (r : Slot) :
    (s.setSlot k r).map = s.map := rfl
@[simp] theorem State.setSlot_panels (s : State) (k : SlotNo) (r : Slot) :
    (s.setSlot k r).panels = s.panels := rfl
@[simp] theorem State.setSlot_groups (s : State) (k : SlotNo) (r : Slot) :
    (s.setSlot k r).groups = s.groups := rfl
@[simp] theorem State.setSlot_sched (s : State) (k : SlotNo) (r : Slot) :
    (s.setSlot k r).sched = s.sched := rfl
@[simp] theorem State.setSlot_link (s : State) (k : SlotNo) (r : Slot) :
    (s.setSlot k r).link = s.link := rfl
@[simp] theorem State.setSlot_triggers (s : State) (k : SlotNo) (r : Slot) :
    (s.setSlot k r).triggers = s.triggers := rfl
@[simp] theorem State.setSlot_tally (s : State) (k : SlotNo) (r : Slot) :
    (s.setSlot k r).tally = s.tally := rfl
@[simp] theorem State.setSlot_walls (s : State) (k : SlotNo) (r : Slot) :
    (s.setSlot k r).walls = s.walls := rfl
@[simp] theorem State.setSlot_names (s : State) (k : SlotNo) (r : Slot) :
    (s.setSlot k r).names = s.names := rfl
@[simp] theorem State.setSlot_recorder (s : State) (k : SlotNo) (r : Slot) :
    (s.setSlot k r).recorder = s.recorder := rfl
@[simp] theorem State.setTrig_pending (s : State) (i : InputNo) (r : Trigger) :
    (s.setTrig i r).pending = s.pending := rfl
@[simp] theorem State.setTrig_now (s : State) (i : InputNo) (r : Trigger) :
    (s.setTrig i r).now = s.now := rfl
@[simp] theorem State.setTrig_pins (s : State) (i : InputNo) (r : Trigger) :
    (s.setTrig i r).pins = s.pins := rfl
@[simp] theorem State.setTrig_control (s : State) (i : InputNo) (r : Trigger) :
    (s.setTrig i r).control = s.control := rfl
@[simp] theorem State.setTrig_map (s : State) (i : InputNo) (r : Trigger) :
    (s.setTrig i r).map = s.map := rfl
@[simp] theorem State.setTrig_panels (s : State) (i : InputNo) (r : Trigger) :
    (s.setTrig i r).panels = s.panels := rfl
@[simp] theorem State.setTrig_groups (s : State) (i : InputNo) (r : Trigger) :
    (s.setTrig i r).groups = s.groups := rfl
@[simp] theorem State.setTrig_sched (s : State) (i : InputNo) (r : Trigger) :
    (s.setTrig i r).sched = s.sched := rfl
@[simp] theorem State.setTrig_link (s : State) (i : InputNo) (r : Trigger) :
    (s.setTrig i r).link = s.link := rfl
@[simp] theorem State.setTrig_salvos (s : State) (i : InputNo) (r : Trigger) :
    (s.setTrig i r).salvos = s.salvos := rfl
@[simp] theorem State.setTrig_tally (s : State) (i : InputNo) (r : Trigger) :
    (s.setTrig i r).tally = s.tally := rfl
@[simp] theorem State.setTrig_walls (s : State) (i : InputNo) (r : Trigger) :
    (s.setTrig i r).walls = s.walls := rfl
@[simp] theorem State.setTrig_names (s : State) (i : InputNo) (r : Trigger) :
    (s.setTrig i r).names = s.names := rfl
@[simp] theorem State.setTrig_recorder (s : State) (i : InputNo) (r : Trigger) :
    (s.setTrig i r).recorder = s.recorder := rfl
@[simp] theorem State.setTally_pending (s : State) (x : Source) (r : Tally) :
    (s.setTally x r).pending = s.pending := rfl
@[simp] theorem State.setTally_now (s : State) (x : Source) (r : Tally) :
    (s.setTally x r).now = s.now := rfl
@[simp] theorem State.setTally_pins (s : State) (x : Source) (r : Tally) :
    (s.setTally x r).pins = s.pins := rfl
@[simp] theorem State.setTally_control (s : State) (x : Source) (r : Tally) :
    (s.setTally x r).control = s.control := rfl
@[simp] theorem State.setTally_map (s : State) (x : Source) (r : Tally) :
    (s.setTally x r).map = s.map := rfl
@[simp] theorem State.setTally_panels (s : State) (x : Source) (r : Tally) :
    (s.setTally x r).panels = s.panels := rfl
@[simp] theorem State.setTally_groups (s : State) (x : Source) (r : Tally) :
    (s.setTally x r).groups = s.groups := rfl
@[simp] theorem State.setTally_sched (s : State) (x : Source) (r : Tally) :
    (s.setTally x r).sched = s.sched := rfl
@[simp] theorem State.setTally_link (s : State) (x : Source) (r : Tally) :
    (s.setTally x r).link = s.link := rfl
@[simp] theorem State.setTally_salvos (s : State) (x : Source) (r : Tally) :
    (s.setTally x r).salvos = s.salvos := rfl
@[simp] theorem State.setTally_triggers (s : State) (x : Source) (r : Tally) :
    (s.setTally x r).triggers = s.triggers := rfl
@[simp] theorem State.setTally_walls (s : State) (x : Source) (r : Tally) :
    (s.setTally x r).walls = s.walls := rfl
@[simp] theorem State.setTally_names (s : State) (x : Source) (r : Tally) :
    (s.setTally x r).names = s.names := rfl
@[simp] theorem State.setTally_recorder (s : State) (x : Source) (r : Tally) :
    (s.setTally x r).recorder = s.recorder := rfl
@[simp] theorem State.setWall_pending (s : State) (w : WallNo) (r : Wall) :
    (s.setWall w r).pending = s.pending := rfl
@[simp] theorem State.setWall_now (s : State) (w : WallNo) (r : Wall) :
    (s.setWall w r).now = s.now := rfl
@[simp] theorem State.setWall_pins (s : State) (w : WallNo) (r : Wall) :
    (s.setWall w r).pins = s.pins := rfl
@[simp] theorem State.setWall_control (s : State) (w : WallNo) (r : Wall) :
    (s.setWall w r).control = s.control := rfl
@[simp] theorem State.setWall_map (s : State) (w : WallNo) (r : Wall) :
    (s.setWall w r).map = s.map := rfl
@[simp] theorem State.setWall_panels (s : State) (w : WallNo) (r : Wall) :
    (s.setWall w r).panels = s.panels := rfl
@[simp] theorem State.setWall_groups (s : State) (w : WallNo) (r : Wall) :
    (s.setWall w r).groups = s.groups := rfl
@[simp] theorem State.setWall_sched (s : State) (w : WallNo) (r : Wall) :
    (s.setWall w r).sched = s.sched := rfl
@[simp] theorem State.setWall_link (s : State) (w : WallNo) (r : Wall) :
    (s.setWall w r).link = s.link := rfl
@[simp] theorem State.setWall_salvos (s : State) (w : WallNo) (r : Wall) :
    (s.setWall w r).salvos = s.salvos := rfl
@[simp] theorem State.setWall_triggers (s : State) (w : WallNo) (r : Wall) :
    (s.setWall w r).triggers = s.triggers := rfl
@[simp] theorem State.setWall_tally (s : State) (w : WallNo) (r : Wall) :
    (s.setWall w r).tally = s.tally := rfl
@[simp] theorem State.setWall_names (s : State) (w : WallNo) (r : Wall) :
    (s.setWall w r).names = s.names := rfl
@[simp] theorem State.setWall_recorder (s : State) (w : WallNo) (r : Wall) :
    (s.setWall w r).recorder = s.recorder := rfl
@[simp] theorem State.setName_pending (s : State) (x : Source) (v : Vector Byte 8) :
    (s.setName x v).pending = s.pending := rfl
@[simp] theorem State.setName_now (s : State) (x : Source) (v : Vector Byte 8) :
    (s.setName x v).now = s.now := rfl
@[simp] theorem State.setName_pins (s : State) (x : Source) (v : Vector Byte 8) :
    (s.setName x v).pins = s.pins := rfl
@[simp] theorem State.setName_control (s : State) (x : Source) (v : Vector Byte 8) :
    (s.setName x v).control = s.control := rfl
@[simp] theorem State.setName_map (s : State) (x : Source) (v : Vector Byte 8) :
    (s.setName x v).map = s.map := rfl
@[simp] theorem State.setName_panels (s : State) (x : Source) (v : Vector Byte 8) :
    (s.setName x v).panels = s.panels := rfl
@[simp] theorem State.setName_groups (s : State) (x : Source) (v : Vector Byte 8) :
    (s.setName x v).groups = s.groups := rfl
@[simp] theorem State.setName_sched (s : State) (x : Source) (v : Vector Byte 8) :
    (s.setName x v).sched = s.sched := rfl
@[simp] theorem State.setName_link (s : State) (x : Source) (v : Vector Byte 8) :
    (s.setName x v).link = s.link := rfl
@[simp] theorem State.setName_salvos (s : State) (x : Source) (v : Vector Byte 8) :
    (s.setName x v).salvos = s.salvos := rfl
@[simp] theorem State.setName_triggers (s : State) (x : Source) (v : Vector Byte 8) :
    (s.setName x v).triggers = s.triggers := rfl
@[simp] theorem State.setName_tally (s : State) (x : Source) (v : Vector Byte 8) :
    (s.setName x v).tally = s.tally := rfl
@[simp] theorem State.setName_walls (s : State) (x : Source) (v : Vector Byte 8) :
    (s.setName x v).walls = s.walls := rfl
@[simp] theorem State.setName_recorder (s : State) (x : Source) (v : Vector Byte 8) :
    (s.setName x v).recorder = s.recorder := rfl
@[simp] theorem State.setChan_pending (s : State) (c : ChannelNo) (r : Channel) :
    (s.setChan c r).pending = s.pending := rfl
@[simp] theorem State.setChan_now (s : State) (c : ChannelNo) (r : Channel) :
    (s.setChan c r).now = s.now := rfl
@[simp] theorem State.setChan_pins (s : State) (c : ChannelNo) (r : Channel) :
    (s.setChan c r).pins = s.pins := rfl
@[simp] theorem State.setChan_control (s : State) (c : ChannelNo) (r : Channel) :
    (s.setChan c r).control = s.control := rfl
@[simp] theorem State.setChan_map (s : State) (c : ChannelNo) (r : Channel) :
    (s.setChan c r).map = s.map := rfl
@[simp] theorem State.setChan_panels (s : State) (c : ChannelNo) (r : Channel) :
    (s.setChan c r).panels = s.panels := rfl
@[simp] theorem State.setChan_groups (s : State) (c : ChannelNo) (r : Channel) :
    (s.setChan c r).groups = s.groups := rfl
@[simp] theorem State.setChan_sched (s : State) (c : ChannelNo) (r : Channel) :
    (s.setChan c r).sched = s.sched := rfl
@[simp] theorem State.setChan_link (s : State) (c : ChannelNo) (r : Channel) :
    (s.setChan c r).link = s.link := rfl
@[simp] theorem State.setChan_salvos (s : State) (c : ChannelNo) (r : Channel) :
    (s.setChan c r).salvos = s.salvos := rfl
@[simp] theorem State.setChan_triggers (s : State) (c : ChannelNo) (r : Channel) :
    (s.setChan c r).triggers = s.triggers := rfl
@[simp] theorem State.setChan_tally (s : State) (c : ChannelNo) (r : Channel) :
    (s.setChan c r).tally = s.tally := rfl
@[simp] theorem State.setChan_walls (s : State) (c : ChannelNo) (r : Channel) :
    (s.setChan c r).walls = s.walls := rfl
@[simp] theorem State.setChan_names (s : State) (c : ChannelNo) (r : Channel) :
    (s.setChan c r).names = s.names := rfl
@[simp] theorem State.clock_pending (s : State) (τ : Nat) :
    (s.clock τ).pending = s.pending := rfl
@[simp] theorem State.clock_pins (s : State) (τ : Nat) :
    (s.clock τ).pins = s.pins := rfl
@[simp] theorem State.clock_control (s : State) (τ : Nat) :
    (s.clock τ).control = s.control := rfl
@[simp] theorem State.clock_map (s : State) (τ : Nat) :
    (s.clock τ).map = s.map := rfl
@[simp] theorem State.clock_panels (s : State) (τ : Nat) :
    (s.clock τ).panels = s.panels := rfl
@[simp] theorem State.clock_groups (s : State) (τ : Nat) :
    (s.clock τ).groups = s.groups := rfl
@[simp] theorem State.clock_sched (s : State) (τ : Nat) :
    (s.clock τ).sched = s.sched := rfl
@[simp] theorem State.clock_link (s : State) (τ : Nat) :
    (s.clock τ).link = s.link := rfl
@[simp] theorem State.clock_salvos (s : State) (τ : Nat) :
    (s.clock τ).salvos = s.salvos := rfl
@[simp] theorem State.clock_triggers (s : State) (τ : Nat) :
    (s.clock τ).triggers = s.triggers := rfl
@[simp] theorem State.clock_tally (s : State) (τ : Nat) :
    (s.clock τ).tally = s.tally := rfl
@[simp] theorem State.clock_walls (s : State) (τ : Nat) :
    (s.clock τ).walls = s.walls := rfl
@[simp] theorem State.clock_names (s : State) (τ : Nat) :
    (s.clock τ).names = s.names := rfl
@[simp] theorem State.clock_recorder (s : State) (τ : Nat) :
    (s.clock τ).recorder = s.recorder := rfl
@[simp] theorem State.raise_pending (s : State) (n : Notice) :
    (s.raise n).pending = s.pending := rfl
@[simp] theorem State.raise_now (s : State) (n : Notice) :
    (s.raise n).now = s.now := rfl
@[simp] theorem State.raise_pins (s : State) (n : Notice) :
    (s.raise n).pins = s.pins := rfl
@[simp] theorem State.raise_map (s : State) (n : Notice) :
    (s.raise n).map = s.map := rfl
@[simp] theorem State.raise_panels (s : State) (n : Notice) :
    (s.raise n).panels = s.panels := rfl
@[simp] theorem State.raise_groups (s : State) (n : Notice) :
    (s.raise n).groups = s.groups := rfl
@[simp] theorem State.raise_sched (s : State) (n : Notice) :
    (s.raise n).sched = s.sched := rfl
@[simp] theorem State.raise_link (s : State) (n : Notice) :
    (s.raise n).link = s.link := rfl
@[simp] theorem State.raise_salvos (s : State) (n : Notice) :
    (s.raise n).salvos = s.salvos := rfl
@[simp] theorem State.raise_triggers (s : State) (n : Notice) :
    (s.raise n).triggers = s.triggers := rfl
@[simp] theorem State.raise_tally (s : State) (n : Notice) :
    (s.raise n).tally = s.tally := rfl
@[simp] theorem State.raise_walls (s : State) (n : Notice) :
    (s.raise n).walls = s.walls := rfl
@[simp] theorem State.raise_names (s : State) (n : Notice) :
    (s.raise n).names = s.names := rfl
@[simp] theorem State.raise_recorder (s : State) (n : Notice) :
    (s.raise n).recorder = s.recorder := rfl
@[simp] theorem State.pushReply_pending (s : State) (r : Reply) :
    (s.pushReply r).pending = s.pending := rfl
@[simp] theorem State.pushReply_now (s : State) (r : Reply) :
    (s.pushReply r).now = s.now := rfl
@[simp] theorem State.pushReply_pins (s : State) (r : Reply) :
    (s.pushReply r).pins = s.pins := rfl
@[simp] theorem State.pushReply_map (s : State) (r : Reply) :
    (s.pushReply r).map = s.map := rfl
@[simp] theorem State.pushReply_panels (s : State) (r : Reply) :
    (s.pushReply r).panels = s.panels := rfl
@[simp] theorem State.pushReply_groups (s : State) (r : Reply) :
    (s.pushReply r).groups = s.groups := rfl
@[simp] theorem State.pushReply_sched (s : State) (r : Reply) :
    (s.pushReply r).sched = s.sched := rfl
@[simp] theorem State.pushReply_link (s : State) (r : Reply) :
    (s.pushReply r).link = s.link := rfl
@[simp] theorem State.pushReply_salvos (s : State) (r : Reply) :
    (s.pushReply r).salvos = s.salvos := rfl
@[simp] theorem State.pushReply_triggers (s : State) (r : Reply) :
    (s.pushReply r).triggers = s.triggers := rfl
@[simp] theorem State.pushReply_tally (s : State) (r : Reply) :
    (s.pushReply r).tally = s.tally := rfl
@[simp] theorem State.pushReply_walls (s : State) (r : Reply) :
    (s.pushReply r).walls = s.walls := rfl
@[simp] theorem State.pushReply_names (s : State) (r : Reply) :
    (s.pushReply r).names = s.names := rfl
@[simp] theorem State.pushReply_recorder (s : State) (r : Reply) :
    (s.pushReply r).recorder = s.recorder := rfl

/-! ### The records an update of another part leaves alone -/

@[simp] theorem State.setEntry_panel (s : State) (d : Dest) (e : Entry) (z : PanelNo) :
    (s.setEntry d e).panel z = s.panel z := rfl
@[simp] theorem State.setEntry_grp (s : State) (d : Dest) (e : Entry) (z : Group) :
    (s.setEntry d e).grp z = s.grp z := rfl
@[simp] theorem State.setEntry_token (s : State) (d : Dest) (e : Entry) (z : Token) :
    (s.setEntry d e).token z = s.token z := rfl
@[simp] theorem State.setEntry_slot (s : State) (d : Dest) (e : Entry) (z : SlotNo) :
    (s.setEntry d e).slot z = s.slot z := rfl
@[simp] theorem State.setEntry_trig (s : State) (d : Dest) (e : Entry) (z : InputNo) :
    (s.setEntry d e).trig z = s.trig z := rfl
@[simp] theorem State.setEntry_tallyOf (s : State) (d : Dest) (e : Entry) (z : Source) :
    (s.setEntry d e).tallyOf z = s.tallyOf z := rfl
@[simp] theorem State.setEntry_wall (s : State) (d : Dest) (e : Entry) (z : WallNo) :
    (s.setEntry d e).wall z = s.wall z := rfl
@[simp] theorem State.setEntry_nameOf (s : State) (d : Dest) (e : Entry) (z : Source) :
    (s.setEntry d e).nameOf z = s.nameOf z := rfl
@[simp] theorem State.setEntry_chan (s : State) (d : Dest) (e : Entry) (z : ChannelNo) :
    (s.setEntry d e).chan z = s.chan z := rfl
@[simp] theorem State.setPanel_entry (s : State) (p : PanelNo) (r : Panel) (z : Dest) :
    (s.setPanel p r).entry z = s.entry z := rfl
@[simp] theorem State.setPanel_grp (s : State) (p : PanelNo) (r : Panel) (z : Group) :
    (s.setPanel p r).grp z = s.grp z := rfl
@[simp] theorem State.setPanel_token (s : State) (p : PanelNo) (r : Panel) (z : Token) :
    (s.setPanel p r).token z = s.token z := rfl
@[simp] theorem State.setPanel_slot (s : State) (p : PanelNo) (r : Panel) (z : SlotNo) :
    (s.setPanel p r).slot z = s.slot z := rfl
@[simp] theorem State.setPanel_trig (s : State) (p : PanelNo) (r : Panel) (z : InputNo) :
    (s.setPanel p r).trig z = s.trig z := rfl
@[simp] theorem State.setPanel_tallyOf (s : State) (p : PanelNo) (r : Panel) (z : Source) :
    (s.setPanel p r).tallyOf z = s.tallyOf z := rfl
@[simp] theorem State.setPanel_wall (s : State) (p : PanelNo) (r : Panel) (z : WallNo) :
    (s.setPanel p r).wall z = s.wall z := rfl
@[simp] theorem State.setPanel_nameOf (s : State) (p : PanelNo) (r : Panel) (z : Source) :
    (s.setPanel p r).nameOf z = s.nameOf z := rfl
@[simp] theorem State.setPanel_chan (s : State) (p : PanelNo) (r : Panel) (z : ChannelNo) :
    (s.setPanel p r).chan z = s.chan z := rfl
@[simp] theorem State.setGrp_entry (s : State) (g : Group) (r : GroupRec) (z : Dest) :
    (s.setGrp g r).entry z = s.entry z := rfl
@[simp] theorem State.setGrp_panel (s : State) (g : Group) (r : GroupRec) (z : PanelNo) :
    (s.setGrp g r).panel z = s.panel z := rfl
@[simp] theorem State.setGrp_token (s : State) (g : Group) (r : GroupRec) (z : Token) :
    (s.setGrp g r).token z = s.token z := rfl
@[simp] theorem State.setGrp_slot (s : State) (g : Group) (r : GroupRec) (z : SlotNo) :
    (s.setGrp g r).slot z = s.slot z := rfl
@[simp] theorem State.setGrp_trig (s : State) (g : Group) (r : GroupRec) (z : InputNo) :
    (s.setGrp g r).trig z = s.trig z := rfl
@[simp] theorem State.setGrp_tallyOf (s : State) (g : Group) (r : GroupRec) (z : Source) :
    (s.setGrp g r).tallyOf z = s.tallyOf z := rfl
@[simp] theorem State.setGrp_wall (s : State) (g : Group) (r : GroupRec) (z : WallNo) :
    (s.setGrp g r).wall z = s.wall z := rfl
@[simp] theorem State.setGrp_nameOf (s : State) (g : Group) (r : GroupRec) (z : Source) :
    (s.setGrp g r).nameOf z = s.nameOf z := rfl
@[simp] theorem State.setGrp_chan (s : State) (g : Group) (r : GroupRec) (z : ChannelNo) :
    (s.setGrp g r).chan z = s.chan z := rfl
@[simp] theorem State.setToken_entry (s : State) (t : Token) (c : TokenState) (z : Dest) :
    (s.setToken t c).entry z = s.entry z := rfl
@[simp] theorem State.setToken_panel (s : State) (t : Token) (c : TokenState) (z : PanelNo) :
    (s.setToken t c).panel z = s.panel z := rfl
@[simp] theorem State.setToken_grp (s : State) (t : Token) (c : TokenState) (z : Group) :
    (s.setToken t c).grp z = s.grp z := rfl
@[simp] theorem State.setToken_slot (s : State) (t : Token) (c : TokenState) (z : SlotNo) :
    (s.setToken t c).slot z = s.slot z := rfl
@[simp] theorem State.setToken_trig (s : State) (t : Token) (c : TokenState) (z : InputNo) :
    (s.setToken t c).trig z = s.trig z := rfl
@[simp] theorem State.setToken_tallyOf (s : State) (t : Token) (c : TokenState) (z : Source) :
    (s.setToken t c).tallyOf z = s.tallyOf z := rfl
@[simp] theorem State.setToken_wall (s : State) (t : Token) (c : TokenState) (z : WallNo) :
    (s.setToken t c).wall z = s.wall z := rfl
@[simp] theorem State.setToken_nameOf (s : State) (t : Token) (c : TokenState) (z : Source) :
    (s.setToken t c).nameOf z = s.nameOf z := rfl
@[simp] theorem State.setToken_chan (s : State) (t : Token) (c : TokenState) (z : ChannelNo) :
    (s.setToken t c).chan z = s.chan z := rfl
@[simp] theorem State.setSlot_entry (s : State) (k : SlotNo) (r : Slot) (z : Dest) :
    (s.setSlot k r).entry z = s.entry z := rfl
@[simp] theorem State.setSlot_panel (s : State) (k : SlotNo) (r : Slot) (z : PanelNo) :
    (s.setSlot k r).panel z = s.panel z := rfl
@[simp] theorem State.setSlot_grp (s : State) (k : SlotNo) (r : Slot) (z : Group) :
    (s.setSlot k r).grp z = s.grp z := rfl
@[simp] theorem State.setSlot_token (s : State) (k : SlotNo) (r : Slot) (z : Token) :
    (s.setSlot k r).token z = s.token z := rfl
@[simp] theorem State.setSlot_trig (s : State) (k : SlotNo) (r : Slot) (z : InputNo) :
    (s.setSlot k r).trig z = s.trig z := rfl
@[simp] theorem State.setSlot_tallyOf (s : State) (k : SlotNo) (r : Slot) (z : Source) :
    (s.setSlot k r).tallyOf z = s.tallyOf z := rfl
@[simp] theorem State.setSlot_wall (s : State) (k : SlotNo) (r : Slot) (z : WallNo) :
    (s.setSlot k r).wall z = s.wall z := rfl
@[simp] theorem State.setSlot_nameOf (s : State) (k : SlotNo) (r : Slot) (z : Source) :
    (s.setSlot k r).nameOf z = s.nameOf z := rfl
@[simp] theorem State.setSlot_chan (s : State) (k : SlotNo) (r : Slot) (z : ChannelNo) :
    (s.setSlot k r).chan z = s.chan z := rfl
@[simp] theorem State.setTrig_entry (s : State) (i : InputNo) (r : Trigger) (z : Dest) :
    (s.setTrig i r).entry z = s.entry z := rfl
@[simp] theorem State.setTrig_panel (s : State) (i : InputNo) (r : Trigger) (z : PanelNo) :
    (s.setTrig i r).panel z = s.panel z := rfl
@[simp] theorem State.setTrig_grp (s : State) (i : InputNo) (r : Trigger) (z : Group) :
    (s.setTrig i r).grp z = s.grp z := rfl
@[simp] theorem State.setTrig_token (s : State) (i : InputNo) (r : Trigger) (z : Token) :
    (s.setTrig i r).token z = s.token z := rfl
@[simp] theorem State.setTrig_slot (s : State) (i : InputNo) (r : Trigger) (z : SlotNo) :
    (s.setTrig i r).slot z = s.slot z := rfl
@[simp] theorem State.setTrig_tallyOf (s : State) (i : InputNo) (r : Trigger) (z : Source) :
    (s.setTrig i r).tallyOf z = s.tallyOf z := rfl
@[simp] theorem State.setTrig_wall (s : State) (i : InputNo) (r : Trigger) (z : WallNo) :
    (s.setTrig i r).wall z = s.wall z := rfl
@[simp] theorem State.setTrig_nameOf (s : State) (i : InputNo) (r : Trigger) (z : Source) :
    (s.setTrig i r).nameOf z = s.nameOf z := rfl
@[simp] theorem State.setTrig_chan (s : State) (i : InputNo) (r : Trigger) (z : ChannelNo) :
    (s.setTrig i r).chan z = s.chan z := rfl
@[simp] theorem State.setTally_entry (s : State) (x : Source) (r : Tally) (z : Dest) :
    (s.setTally x r).entry z = s.entry z := rfl
@[simp] theorem State.setTally_panel (s : State) (x : Source) (r : Tally) (z : PanelNo) :
    (s.setTally x r).panel z = s.panel z := rfl
@[simp] theorem State.setTally_grp (s : State) (x : Source) (r : Tally) (z : Group) :
    (s.setTally x r).grp z = s.grp z := rfl
@[simp] theorem State.setTally_token (s : State) (x : Source) (r : Tally) (z : Token) :
    (s.setTally x r).token z = s.token z := rfl
@[simp] theorem State.setTally_slot (s : State) (x : Source) (r : Tally) (z : SlotNo) :
    (s.setTally x r).slot z = s.slot z := rfl
@[simp] theorem State.setTally_trig (s : State) (x : Source) (r : Tally) (z : InputNo) :
    (s.setTally x r).trig z = s.trig z := rfl
@[simp] theorem State.setTally_wall (s : State) (x : Source) (r : Tally) (z : WallNo) :
    (s.setTally x r).wall z = s.wall z := rfl
@[simp] theorem State.setTally_nameOf (s : State) (x : Source) (r : Tally) (z : Source) :
    (s.setTally x r).nameOf z = s.nameOf z := rfl
@[simp] theorem State.setTally_chan (s : State) (x : Source) (r : Tally) (z : ChannelNo) :
    (s.setTally x r).chan z = s.chan z := rfl
@[simp] theorem State.setWall_entry (s : State) (w : WallNo) (r : Wall) (z : Dest) :
    (s.setWall w r).entry z = s.entry z := rfl
@[simp] theorem State.setWall_panel (s : State) (w : WallNo) (r : Wall) (z : PanelNo) :
    (s.setWall w r).panel z = s.panel z := rfl
@[simp] theorem State.setWall_grp (s : State) (w : WallNo) (r : Wall) (z : Group) :
    (s.setWall w r).grp z = s.grp z := rfl
@[simp] theorem State.setWall_token (s : State) (w : WallNo) (r : Wall) (z : Token) :
    (s.setWall w r).token z = s.token z := rfl
@[simp] theorem State.setWall_slot (s : State) (w : WallNo) (r : Wall) (z : SlotNo) :
    (s.setWall w r).slot z = s.slot z := rfl
@[simp] theorem State.setWall_trig (s : State) (w : WallNo) (r : Wall) (z : InputNo) :
    (s.setWall w r).trig z = s.trig z := rfl
@[simp] theorem State.setWall_tallyOf (s : State) (w : WallNo) (r : Wall) (z : Source) :
    (s.setWall w r).tallyOf z = s.tallyOf z := rfl
@[simp] theorem State.setWall_nameOf (s : State) (w : WallNo) (r : Wall) (z : Source) :
    (s.setWall w r).nameOf z = s.nameOf z := rfl
@[simp] theorem State.setWall_chan (s : State) (w : WallNo) (r : Wall) (z : ChannelNo) :
    (s.setWall w r).chan z = s.chan z := rfl
@[simp] theorem State.setName_entry (s : State) (x : Source) (v : Vector Byte 8) (z : Dest) :
    (s.setName x v).entry z = s.entry z := rfl
@[simp] theorem State.setName_panel (s : State) (x : Source) (v : Vector Byte 8) (z : PanelNo) :
    (s.setName x v).panel z = s.panel z := rfl
@[simp] theorem State.setName_grp (s : State) (x : Source) (v : Vector Byte 8) (z : Group) :
    (s.setName x v).grp z = s.grp z := rfl
@[simp] theorem State.setName_token (s : State) (x : Source) (v : Vector Byte 8) (z : Token) :
    (s.setName x v).token z = s.token z := rfl
@[simp] theorem State.setName_slot (s : State) (x : Source) (v : Vector Byte 8) (z : SlotNo) :
    (s.setName x v).slot z = s.slot z := rfl
@[simp] theorem State.setName_trig (s : State) (x : Source) (v : Vector Byte 8) (z : InputNo) :
    (s.setName x v).trig z = s.trig z := rfl
@[simp] theorem State.setName_tallyOf (s : State) (x : Source) (v : Vector Byte 8) (z : Source) :
    (s.setName x v).tallyOf z = s.tallyOf z := rfl
@[simp] theorem State.setName_wall (s : State) (x : Source) (v : Vector Byte 8) (z : WallNo) :
    (s.setName x v).wall z = s.wall z := rfl
@[simp] theorem State.setName_chan (s : State) (x : Source) (v : Vector Byte 8) (z : ChannelNo) :
    (s.setName x v).chan z = s.chan z := rfl
@[simp] theorem State.setChan_entry (s : State) (c : ChannelNo) (r : Channel) (z : Dest) :
    (s.setChan c r).entry z = s.entry z := rfl
@[simp] theorem State.setChan_panel (s : State) (c : ChannelNo) (r : Channel) (z : PanelNo) :
    (s.setChan c r).panel z = s.panel z := rfl
@[simp] theorem State.setChan_grp (s : State) (c : ChannelNo) (r : Channel) (z : Group) :
    (s.setChan c r).grp z = s.grp z := rfl
@[simp] theorem State.setChan_token (s : State) (c : ChannelNo) (r : Channel) (z : Token) :
    (s.setChan c r).token z = s.token z := rfl
@[simp] theorem State.setChan_slot (s : State) (c : ChannelNo) (r : Channel) (z : SlotNo) :
    (s.setChan c r).slot z = s.slot z := rfl
@[simp] theorem State.setChan_trig (s : State) (c : ChannelNo) (r : Channel) (z : InputNo) :
    (s.setChan c r).trig z = s.trig z := rfl
@[simp] theorem State.setChan_tallyOf (s : State) (c : ChannelNo) (r : Channel) (z : Source) :
    (s.setChan c r).tallyOf z = s.tallyOf z := rfl
@[simp] theorem State.setChan_wall (s : State) (c : ChannelNo) (r : Channel) (z : WallNo) :
    (s.setChan c r).wall z = s.wall z := rfl
@[simp] theorem State.setChan_nameOf (s : State) (c : ChannelNo) (r : Channel) (z : Source) :
    (s.setChan c r).nameOf z = s.nameOf z := rfl
@[simp] theorem State.clock_entry (s : State) (τ : Nat) (z : Dest) :
    (s.clock τ).entry z = s.entry z := rfl
@[simp] theorem State.clock_panel (s : State) (τ : Nat) (z : PanelNo) :
    (s.clock τ).panel z = s.panel z := rfl
@[simp] theorem State.clock_grp (s : State) (τ : Nat) (z : Group) :
    (s.clock τ).grp z = s.grp z := rfl
@[simp] theorem State.clock_token (s : State) (τ : Nat) (z : Token) :
    (s.clock τ).token z = s.token z := rfl
@[simp] theorem State.clock_slot (s : State) (τ : Nat) (z : SlotNo) :
    (s.clock τ).slot z = s.slot z := rfl
@[simp] theorem State.clock_trig (s : State) (τ : Nat) (z : InputNo) :
    (s.clock τ).trig z = s.trig z := rfl
@[simp] theorem State.clock_tallyOf (s : State) (τ : Nat) (z : Source) :
    (s.clock τ).tallyOf z = s.tallyOf z := rfl
@[simp] theorem State.clock_wall (s : State) (τ : Nat) (z : WallNo) :
    (s.clock τ).wall z = s.wall z := rfl
@[simp] theorem State.clock_nameOf (s : State) (τ : Nat) (z : Source) :
    (s.clock τ).nameOf z = s.nameOf z := rfl
@[simp] theorem State.clock_chan (s : State) (τ : Nat) (z : ChannelNo) :
    (s.clock τ).chan z = s.chan z := rfl
@[simp] theorem State.raise_entry (s : State) (n : Notice) (z : Dest) :
    (s.raise n).entry z = s.entry z := rfl
@[simp] theorem State.raise_panel (s : State) (n : Notice) (z : PanelNo) :
    (s.raise n).panel z = s.panel z := rfl
@[simp] theorem State.raise_grp (s : State) (n : Notice) (z : Group) :
    (s.raise n).grp z = s.grp z := rfl
@[simp] theorem State.raise_token (s : State) (n : Notice) (z : Token) :
    (s.raise n).token z = s.token z := rfl
@[simp] theorem State.raise_slot (s : State) (n : Notice) (z : SlotNo) :
    (s.raise n).slot z = s.slot z := rfl
@[simp] theorem State.raise_trig (s : State) (n : Notice) (z : InputNo) :
    (s.raise n).trig z = s.trig z := rfl
@[simp] theorem State.raise_tallyOf (s : State) (n : Notice) (z : Source) :
    (s.raise n).tallyOf z = s.tallyOf z := rfl
@[simp] theorem State.raise_wall (s : State) (n : Notice) (z : WallNo) :
    (s.raise n).wall z = s.wall z := rfl
@[simp] theorem State.raise_nameOf (s : State) (n : Notice) (z : Source) :
    (s.raise n).nameOf z = s.nameOf z := rfl
@[simp] theorem State.raise_chan (s : State) (n : Notice) (z : ChannelNo) :
    (s.raise n).chan z = s.chan z := rfl
@[simp] theorem State.pushReply_entry (s : State) (r : Reply) (z : Dest) :
    (s.pushReply r).entry z = s.entry z := rfl
@[simp] theorem State.pushReply_panel (s : State) (r : Reply) (z : PanelNo) :
    (s.pushReply r).panel z = s.panel z := rfl
@[simp] theorem State.pushReply_grp (s : State) (r : Reply) (z : Group) :
    (s.pushReply r).grp z = s.grp z := rfl
@[simp] theorem State.pushReply_token (s : State) (r : Reply) (z : Token) :
    (s.pushReply r).token z = s.token z := rfl
@[simp] theorem State.pushReply_slot (s : State) (r : Reply) (z : SlotNo) :
    (s.pushReply r).slot z = s.slot z := rfl
@[simp] theorem State.pushReply_trig (s : State) (r : Reply) (z : InputNo) :
    (s.pushReply r).trig z = s.trig z := rfl
@[simp] theorem State.pushReply_tallyOf (s : State) (r : Reply) (z : Source) :
    (s.pushReply r).tallyOf z = s.tallyOf z := rfl
@[simp] theorem State.pushReply_wall (s : State) (r : Reply) (z : WallNo) :
    (s.pushReply r).wall z = s.wall z := rfl
@[simp] theorem State.pushReply_nameOf (s : State) (r : Reply) (z : Source) :
    (s.pushReply r).nameOf z = s.nameOf z := rfl
@[simp] theorem State.pushReply_chan (s : State) (r : Reply) (z : ChannelNo) :
    (s.pushReply r).chan z = s.chan z := rfl

/-! ### Reading back one record -/

theorem groupIdx_inj {g h : Group} : groupIdx g = groupIdx h ↔ g = h := by
  cases g <;> cases h <;> decide

@[simp] theorem State.setEntry_entry_self (s : State) (d : Dest) (e : Entry) : (s.setEntry d e).entry d = e := by
  simp [State.setEntry, State.entry]

theorem State.setEntry_entry_of_ne (s : State) (d : Dest) (e : Entry) {z : Dest} (h : z ≠ d) :
    (s.setEntry d e).entry z = s.entry z := by
  have hne : d.1 ≠ z.1 := fun e => h (Fin.ext e).symm
  simp [State.setEntry, State.entry, hne]

theorem State.setEntry_entry (s : State) (d : Dest) (e : Entry) (z : Dest) :
    (s.setEntry d e).entry z = if z = d then e else s.entry z := by
  split
  · subst z; simp
  · exact s.setEntry_entry_of_ne d e ‹_›

@[simp] theorem State.setPanel_panel_self (s : State) (p : PanelNo) (r : Panel) : (s.setPanel p r).panel p = r := by
  simp [State.setPanel, State.panel]

theorem State.setPanel_panel_of_ne (s : State) (p : PanelNo) (r : Panel) {z : PanelNo} (h : z ≠ p) :
    (s.setPanel p r).panel z = s.panel z := by
  have hne : p.1 ≠ z.1 := fun e => h (Fin.ext e).symm
  simp [State.setPanel, State.panel, hne]

theorem State.setPanel_panel (s : State) (p : PanelNo) (r : Panel) (z : PanelNo) :
    (s.setPanel p r).panel z = if z = p then r else s.panel z := by
  split
  · subst z; simp
  · exact s.setPanel_panel_of_ne p r ‹_›

@[simp] theorem State.setGrp_grp_self (s : State) (g : Group) (r : GroupRec) : (s.setGrp g r).grp g = r := by
  simp [State.setGrp, State.grp]

theorem State.setGrp_grp_of_ne (s : State) (g : Group) (r : GroupRec) {z : Group} (h : z ≠ g) :
    (s.setGrp g r).grp z = s.grp z := by
  have hne : (groupIdx g).1 ≠ (groupIdx z).1 := fun e => h (groupIdx_inj.1 (Fin.ext e)).symm
  simp [State.setGrp, State.grp, hne]

theorem State.setGrp_grp (s : State) (g : Group) (r : GroupRec) (z : Group) :
    (s.setGrp g r).grp z = if z = g then r else s.grp z := by
  split
  · subst z; simp
  · exact s.setGrp_grp_of_ne g r ‹_›

@[simp] theorem State.setToken_token_self (s : State) (t : Token) (c : TokenState) : (s.setToken t c).token t = c := by
  simp [State.setToken, State.token]

theorem State.setToken_token_of_ne (s : State) (t : Token) (c : TokenState) {z : Token} (h : z ≠ t) :
    (s.setToken t c).token z = s.token z := by
  have hne : t.1 ≠ z.1 := fun e => h (Fin.ext e).symm
  simp [State.setToken, State.token, hne]

theorem State.setToken_token (s : State) (t : Token) (c : TokenState) (z : Token) :
    (s.setToken t c).token z = if z = t then c else s.token z := by
  split
  · subst z; simp
  · exact s.setToken_token_of_ne t c ‹_›

@[simp] theorem State.setSlot_slot_self (s : State) (k : SlotNo) (r : Slot) : (s.setSlot k r).slot k = r := by
  simp [State.setSlot, State.slot]

theorem State.setSlot_slot_of_ne (s : State) (k : SlotNo) (r : Slot) {z : SlotNo} (h : z ≠ k) :
    (s.setSlot k r).slot z = s.slot z := by
  have hne : k.1 ≠ z.1 := fun e => h (Fin.ext e).symm
  simp [State.setSlot, State.slot, hne]

theorem State.setSlot_slot (s : State) (k : SlotNo) (r : Slot) (z : SlotNo) :
    (s.setSlot k r).slot z = if z = k then r else s.slot z := by
  split
  · subst z; simp
  · exact s.setSlot_slot_of_ne k r ‹_›

@[simp] theorem State.setTrig_trig_self (s : State) (i : InputNo) (r : Trigger) : (s.setTrig i r).trig i = r := by
  simp [State.setTrig, State.trig]

theorem State.setTrig_trig_of_ne (s : State) (i : InputNo) (r : Trigger) {z : InputNo} (h : z ≠ i) :
    (s.setTrig i r).trig z = s.trig z := by
  have hne : i.1 ≠ z.1 := fun e => h (Fin.ext e).symm
  simp [State.setTrig, State.trig, hne]

theorem State.setTrig_trig (s : State) (i : InputNo) (r : Trigger) (z : InputNo) :
    (s.setTrig i r).trig z = if z = i then r else s.trig z := by
  split
  · subst z; simp
  · exact s.setTrig_trig_of_ne i r ‹_›

@[simp] theorem State.setTally_tallyOf_self (s : State) (x : Source) (r : Tally) : (s.setTally x r).tallyOf x = r := by
  simp [State.setTally, State.tallyOf]

theorem State.setTally_tallyOf_of_ne (s : State) (x : Source) (r : Tally) {z : Source} (h : z ≠ x) :
    (s.setTally x r).tallyOf z = s.tallyOf z := by
  have hne : x.1 ≠ z.1 := fun e => h (Fin.ext e).symm
  simp [State.setTally, State.tallyOf, hne]

theorem State.setTally_tallyOf (s : State) (x : Source) (r : Tally) (z : Source) :
    (s.setTally x r).tallyOf z = if z = x then r else s.tallyOf z := by
  split
  · subst z; simp
  · exact s.setTally_tallyOf_of_ne x r ‹_›

@[simp] theorem State.setWall_wall_self (s : State) (w : WallNo) (r : Wall) : (s.setWall w r).wall w = r := by
  simp [State.setWall, State.wall]

theorem State.setWall_wall_of_ne (s : State) (w : WallNo) (r : Wall) {z : WallNo} (h : z ≠ w) :
    (s.setWall w r).wall z = s.wall z := by
  have hne : w.1 ≠ z.1 := fun e => h (Fin.ext e).symm
  simp [State.setWall, State.wall, hne]

theorem State.setWall_wall (s : State) (w : WallNo) (r : Wall) (z : WallNo) :
    (s.setWall w r).wall z = if z = w then r else s.wall z := by
  split
  · subst z; simp
  · exact s.setWall_wall_of_ne w r ‹_›

@[simp] theorem State.setName_nameOf_self (s : State) (x : Source) (v : Vector Byte 8) : (s.setName x v).nameOf x = v := by
  simp [State.setName, State.nameOf]

theorem State.setName_nameOf_of_ne (s : State) (x : Source) (v : Vector Byte 8) {z : Source} (h : z ≠ x) :
    (s.setName x v).nameOf z = s.nameOf z := by
  have hne : x.1 ≠ z.1 := fun e => h (Fin.ext e).symm
  simp [State.setName, State.nameOf, hne]

theorem State.setName_nameOf (s : State) (x : Source) (v : Vector Byte 8) (z : Source) :
    (s.setName x v).nameOf z = if z = x then v else s.nameOf z := by
  split
  · subst z; simp
  · exact s.setName_nameOf_of_ne x v ‹_›

@[simp] theorem State.setChan_chan_self (s : State) (c : ChannelNo) (r : Channel) : (s.setChan c r).chan c = r := by
  simp [State.setChan, State.chan]

theorem State.setChan_chan_of_ne (s : State) (c : ChannelNo) (r : Channel) {z : ChannelNo} (h : z ≠ c) :
    (s.setChan c r).chan z = s.chan z := by
  have hne : c.1 ≠ z.1 := fun e => h (Fin.ext e).symm
  simp [State.setChan, State.chan, hne]

theorem State.setChan_chan (s : State) (c : ChannelNo) (r : Channel) (z : ChannelNo) :
    (s.setChan c r).chan z = if z = c then r else s.chan z := by
  split
  · subst z; simp
  · exact s.setChan_chan_of_ne c r ‹_›

/-! ### What an update of an entry, a token or a channel leaves of its own part -/

@[simp] theorem State.setEntry_dests (s : State) (d : Dest) (e : Entry) :
    (s.setEntry d e).map.dests = s.map.dests := rfl
@[simp] theorem State.setEntry_sources (s : State) (d : Dest) (e : Entry) :
    (s.setEntry d e).map.sources = s.map.sources := rfl
@[simp] theorem State.setToken_state (s : State) (t : Token) (c : TokenState) :
    (s.setToken t c).link.state = s.link.state := rfl
@[simp] theorem State.setToken_waiting (s : State) (t : Token) (c : TokenState) :
    (s.setToken t c).link.waiting = s.link.waiting := rfl
@[simp] theorem State.setChan_queue (s : State) (c : ChannelNo) (r : Channel) :
    (s.setChan c r).recorder.queue = s.recorder.queue := rfl
@[simp] theorem State.setChan_line (s : State) (c : ChannelNo) (r : Channel) :
    (s.setChan c r).recorder.line = s.recorder.line := rfl
@[simp] theorem State.setChan_high (s : State) (c : ChannelNo) (r : Channel) :
    (s.setChan c r).recorder.high = s.recorder.high := rfl
@[simp] theorem State.clock_now (s : State) (τ : Nat) : (s.clock τ).now = max s.now τ := rfl
@[simp] theorem State.raise_control (s : State) (n : Notice) :
    (s.raise n).control = s.control.raise n := rfl
@[simp] theorem State.pushReply_control (s : State) (r : Reply) :
    (s.pushReply r).control = s.control.pushReply r := rfl

/-! ### Two states with the same records are the same -/

theorem State.map_ext {s t : State} (he : ∀ d, t.entry d = s.entry d)
    (hd : t.map.dests = s.map.dests) (hs : t.map.sources = s.map.sources) : t.map = s.map := by
  have h : t.map.entries = s.map.entries := by
    ext i hi
    exact he ⟨i, hi⟩
  cases hm : t.map; cases hn : s.map
  simp_all

end Sys2Proof.Machine
end

