-- ==== Sys2Proof/Laws/Frames.lean ====
section
/-! SUPPORT. What each shared operation leaves alone: for every operation the list of the parts of the
state it may change. -/

namespace Sys2Proof.Machine

/-! ### Composing frames -/

theorem SameBut.refl (ps : List Part) (s : State) : SameBut ps s s := by
  intro p _; cases p <;> rfl

theorem SameBut.trans {ps : List Part} {s t u : State} (h : SameBut ps s t) (k : SameBut ps t u) :
    SameBut ps s u := by
  intro p hp
  have h1 := h p hp
  have h2 := k p hp
  cases p <;> exact Eq.trans h2 h1

theorem SameBut.mono {ps qs : List Part} {s t : State} (h : SameBut ps s t)
    (hq : ∀ p ∈ ps, p ∈ qs) : SameBut qs s t := fun p hp => h p fun hm => hp (hq p hm)

theorem SameBut.comp {ps qs rs : List Part} {s t u : State} (h : SameBut ps s t) (k : SameBut qs t u)
    (hp : ∀ p ∈ ps, p ∈ rs) (hq : ∀ p ∈ qs, p ∈ rs) : SameBut rs s u := (h.mono hp).trans (k.mono hq)

theorem SameBut.foldl {α : Type} {ps : List Part} {f : State → α → State}
    (hf : ∀ s a, SameBut ps s (f s a)) (l : List α) (s : State) : SameBut ps s (l.foldl f s) := by
  induction l generalizing s with
  | nil => exact .refl ps s
  | cons a l ih => exact (hf s a).trans (ih (f s a))

/-- A state written with new values of some parts. -/
theorem SameBut.of_eqs {ps : List Part} {s t : State} (h : ∀ p, p ∉ ps → p.Same s t) :
    SameBut ps s t := h

/-! ### Updates of one record -/

theorem setEntry_same (s : State) (d : Dest) (e : Entry) : SameBut [.map] s (s.setEntry d e) := by
  intro p hp; cases p <;> first | rfl | simp at hp

theorem setPanel_same (s : State) (i : PanelNo) (r : Panel) : SameBut [.panels] s (s.setPanel i r) := by
  intro p hp; cases p <;> first | rfl | simp at hp

theorem setGrp_same (s : State) (g : Group) (r : GroupRec) : SameBut [.groups] s (s.setGrp g r) := by
  intro p hp; cases p <;> first | rfl | simp at hp

theorem setToken_same (s : State) (t : Token) (c : TokenState) :
    SameBut [.link] s (s.setToken t c) := by
  intro p hp; cases p <;> first | rfl | simp at hp

theorem setSlot_same (s : State) (k : SlotNo) (r : Slot) : SameBut [.salvos] s (s.setSlot k r) := by
  intro p hp; cases p <;> first | rfl | simp at hp

theorem setTrig_same (s : State) (i : InputNo) (r : Trigger) :
    SameBut [.triggers] s (s.setTrig i r) := by
  intro p hp; cases p <;> first | rfl | simp at hp

theorem setTally_same (s : State) (x : Source) (r : Tally) : SameBut [.tally] s (s.setTally x r) := by
  intro p hp; cases p <;> first | rfl | simp at hp

theorem setWall_same (s : State) (w : WallNo) (r : Wall) : SameBut [.walls] s (s.setWall w r) := by
  intro p hp; cases p <;> first | rfl | simp at hp

theorem setName_same (s : State) (x : Source) (v : Vector Byte 8) :
    SameBut [.names] s (s.setName x v) := by
  intro p hp; cases p <;> first | rfl | simp at hp

theorem setChan_same (s : State) (c : ChannelNo) (r : Channel) :
    SameBut [.recorder] s (s.setChan c r) := by
  intro p hp; cases p <;> first | rfl | simp at hp

theorem clock_same (s : State) (τ : Nat) : SameBut [.now] s (s.clock τ) := by
  intro p hp; cases p <;> first | rfl | simp at hp

theorem withControl_same (s : State) (c : Control) : SameBut [.control] s { s with control := c } := by
  intro p hp; cases p <;> first | rfl | simp at hp

theorem withLink_same (s : State) (l : Link) : SameBut [.link] s { s with link := l } := by
  intro p hp; cases p <;> first | rfl | simp at hp

theorem withMap_same (s : State) (m : CrosspointMap) : SameBut [.map] s { s with map := m } := by
  intro p hp; cases p <;> first | rfl | simp at hp

theorem withRecorder_same (s : State) (r : Recorder) :
    SameBut [.recorder] s { s with recorder := r } := by
  intro p hp; cases p <;> first | rfl | simp at hp

theorem withSched_same (s : State) (q : Scheduler) : SameBut [.sched] s { s with sched := q } := by
  intro p hp; cases p <;> first | rfl | simp at hp

theorem withPins_same (s : State) (q : Pins) : SameBut [.pins] s { s with pins := q } := by
  intro p hp; cases p <;> first | rfl | simp at hp

/-! ### The control line -/

theorem raise_same (s : State) (n : Notice) : SameBut [.control] s (s.raise n) := withControl_same s _

theorem pushReply_same (s : State) (r : Reply) : SameBut [.control] s (s.pushReply r) :=
  withControl_same s _

theorem discard_same (s : State) : SameBut [.control] s s.discard := withControl_same s _

theorem flushHigh_same (s : State) : SameBut [.control, .recorder] s s.flushHigh :=
  (withRecorder_same s _).comp (SameBut.foldl raise_same _ _) (by decide) (by decide)

theorem finishServing_same (s : State) (o : Order) (v : Verdict) (payload : List Byte) :
    SameBut [.control, .recorder] s (s.finishServing o v payload) :=
  (flushHigh_same s).comp (withControl_same _ _) (by decide) (by decide)

theorem receiverReply_same (s : State) (r : Reply) : SameBut [.control] s (s.receiverReply r) := by
  unfold State.receiverReply; split
  · exact pushReply_same _ _
  · exact discard_same _

theorem judgeBody_same (s : State) (b : List Byte) : SameBut [.control] s (s.judgeBody b) := by
  unfold State.judgeBody State.offer
  dsimp only
  split
  · exact discard_same _
  · split
    · exact discard_same _
    · split
      · exact receiverReply_same _ _
      · split
        · exact withControl_same _ _
        · exact receiverReply_same _ _

theorem controlByte_same (s : State) (b : Byte) : SameBut [.control] s (s.controlByte b) := by
  unfold State.controlByte
  dsimp only
  split
  · exact withControl_same _ _
  · exact (withControl_same _ _).trans (discard_same _)
  · exact (withControl_same _ _).trans (judgeBody_same _ _)

theorem controlGap_same (s : State) : SameBut [.control] s s.controlGap :=
  (withControl_same _ _).trans (discard_same _)

theorem controlBytes_same (s : State) (bs : List Byte) : SameBut [.control] s (s.controlBytes bs) := by
  unfold State.controlBytes
  dsimp only
  refine SameBut.trans ?_ (SameBut.foldl controlByte_same bs _)
  split
  · exact (controlGap_same s).trans (withControl_same _ _)
  · exact withControl_same _ _

/-! ### Walls -/

theorem queueTile_same (s : State) (p : WallNo × TileNo) : SameBut [.walls] s (s.queueTile p) :=
  setWall_same _ _ _

theorem queueTiles_same (s : State) (ps : List (WallNo × TileNo)) :
    SameBut [.walls] s (s.queueTiles ps) := SameBut.foldl queueTile_same ps s

theorem announceDest_same (s : State) (d : Dest) : SameBut [.walls] s (s.announceDest d) :=
  queueTiles_same s _

theorem announceSource_same (s : State) (x : Source) : SameBut [.walls] s (s.announceSource x) :=
  queueTiles_same s _

theorem drainWall_same (s : State) (f : FrameNo) (w : WallNo) : SameBut [.walls] s (s.drainWall f w) := by
  unfold State.drainWall
  dsimp only
  split
  · exact .refl _ _
  · exact setWall_same _ _ _

theorem wallsAtBoundary_same (s : State) (g : Group) (f : FrameNo) :
    SameBut [.walls] s (s.wallsAtBoundary g f) :=
  SameBut.foldl (fun s w => drainWall_same s f w) _ s

theorem unbindPair_same (s : State) (k : TileKind) (p : WallNo × TileNo) :
    SameBut [.map] s (s.unbindPair k p) := by
  cases k <;> first | exact .refl _ _ | exact setEntry_same _ _ _

theorem bindPair_same (s : State) (k : TileKind) (p : WallNo × TileNo) :
    SameBut [.map] s (s.bindPair k p) := by
  cases k <;> first | exact .refl _ _ | exact setEntry_same _ _ _

theorem writeTile_same (s : State) (w : WallNo) (t : TileNo) (k : TileKind) :
    SameBut [.map, .walls] s (s.writeTile w t k) := by
  unfold State.writeTile
  dsimp only
  split
  · exact (setWall_same _ _ _).mono (by decide)
  · exact ((unbindPair_same s _ _).trans (bindPair_same _ _ _)).comp (setWall_same _ _ _)
      (by decide) (by decide)

theorem resetWall_same (s : State) (w : WallNo) : SameBut [.map, .walls] s (s.resetWall w) :=
  (setWall_same s w _).comp (withMap_same _ _) (by decide) (by decide)

theorem resetWalls_same (s : State) (w : Option WallNo) : SameBut [.map, .walls] s (s.resetWalls w) := by
  cases w
  · exact SameBut.foldl resetWall_same _ s
  · exact resetWall_same s _

/-! ### Tally -/

theorem bump_same (s : State) (k : Counter) (up : Bool) (x : Option Source) :
    SameBut [.tally] s (s.bump k up x) := by
  cases x
  · exact .refl _ _
  · exact setTally_same _ _ _

theorem moveCount_same (s : State) (k : Counter) (old new : Option Source) :
    SameBut [.tally] s (s.moveCount k old new) := (bump_same s k _ _).trans (bump_same _ k _ _)

theorem bumpClass_same (s : State) (c : DestClass) (up : Bool) (x : Option Source) :
    SameBut [.tally] s (s.bumpClass c up x) := by
  cases c
  · exact .refl _ _
  · exact bump_same _ _ _ _
  · exact bump_same _ _ _ _

theorem compareColour_same (s : State) (x : Option Source) :
    SameBut [.tally, .walls] s (s.compareColour x) := by
  cases x with
  | none => exact .refl _ _
  | some y =>
    unfold State.compareColour
    dsimp only
    split
    · exact .refl _ _
    · exact (setTally_same s _ _).comp (announceSource_same _ _) (by decide) (by decide)

theorem tallyChange_same (s : State) (d : Dest) (old new : Option Source) :
    SameBut [.tally, .walls] s (s.tallyChange d old new) :=
  (((bumpClass_same s _ _ _).trans (bumpClass_same _ _ _ _)).trans
    (SameBut.foldl (fun s _ => moveCount_same s _ _ _) _ _)).comp
    ((compareColour_same _ _).trans (compareColour_same _ _)) (by decide) (by decide)

theorem tallyClass_same (s : State) (old new : DestClass) (x : Option Source) :
    SameBut [.tally, .walls] s (s.tallyClass old new x) :=
  ((bumpClass_same s _ _ _).trans (bumpClass_same _ _ _ _)).comp (compareColour_same _ _)
    (by decide) (by decide)

theorem tallyRecord_same (s : State) (d : Dest) (up : Bool) :
    SameBut [.tally, .walls] s (s.tallyRecord d up) :=
  (bump_same s _ _ _).comp (compareColour_same _ _) (by decide) (by decide)

theorem tallyChannel_same (s : State) (c : ChannelNo) (up : Bool) :
    SameBut [.tally, .walls] s (s.tallyChannel c up) := by
  unfold State.tallyChannel
  split
  · exact .refl _ _
  · exact tallyRecord_same _ _ _

/-! ### Recorders -/

theorem issue_same (s : State) (c : ChannelNo) (op : RecOp) (g : Group) (f : FrameNo) :
    SameBut [.recorder] s (s.issue c op g f) := withRecorder_same s _

theorem issueHalt_same (s : State) (c : ChannelNo) : SameBut [.recorder] s (s.issueHalt c) :=
  issue_same s _ _ _ _

theorem logMark_same (s : State) (c : ChannelNo) (m : Mark) : SameBut [.recorder] s (s.logMark c m) := by
  unfold State.logMark
  dsimp only
  split
  · exact (setChan_same s _ _).trans (withRecorder_same _ _)
  · exact setChan_same s _ _

theorem raiseRec_same (s : State) (c : ChannelNo) (b : RecState) (k : RecCause) :
    SameBut [.control] s (s.raiseRec c b k) := raise_same s _

theorem enterRecording_same (s : State) (c : ChannelNo) (k : RecCause) :
    SameBut [.control, .tally, .walls, .recorder] s (s.enterRecording c k) :=
  ((setChan_same s c _).comp (tallyChannel_same _ c true) (by decide) (by decide)).trans
    ((logMark_same _ c _).comp (raiseRec_same _ c _ _) (by decide) (by decide))

theorem recStart_same (s : State) (c : ChannelNo) (k : RecCause) :
    SameBut [.control, .tally, .walls, .recorder] s (s.recStart c k).2 := by
  unfold State.recStart
  dsimp only
  split
  · exact .refl _ _
  · split
    · exact .refl _ _
    · split
      · exact ((setChan_same s c _).trans (issue_same _ _ _ _ _)).comp (enterRecording_same _ c k)
          (by decide) (by decide)
      · exact (((setChan_same s c _).trans (issue_same _ _ _ _ _)).trans (setChan_same _ c _)).comp
          (raiseRec_same _ c _ _) (by decide) (by decide)

theorem recStop_same (s : State) (c : ChannelNo) (k : RecCause) :
    SameBut [.control, .tally, .walls, .recorder] s (s.recStop c k) := by
  unfold State.recStop
  dsimp only
  split
  · exact .refl _ _
  · exact ((setChan_same s c _).trans (issueHalt_same _ c)).comp (raiseRec_same _ c _ _)
      (by decide) (by decide)
  · exact (((logMark_same s c _).trans (setChan_same _ c _)).comp (tallyChannel_same _ c false)
      (by decide) (by decide)).trans
      ((issueHalt_same _ c).comp (raiseRec_same _ c _ _) (by decide) (by decide))

theorem splitChannel_same (g : Group) (f : FrameNo) (k : ChangeCause) (old new : Option Source)
    (s : State) (c : ChannelNo) : SameBut [.recorder] s (s.splitChannel g f k old new c) :=
  ((setChan_same s c _).trans (issue_same _ _ _ _ _)).trans (logMark_same _ c _)

theorem splitRecorders_same (s : State) (d : Dest) (k : ChangeCause) (old new : Option Source) :
    SameBut [.recorder] s (s.splitRecorders d k old new) :=
  SameBut.foldl (fun s c => splitChannel_same _ _ k old new s c) _ s

theorem splitLost_same (s before : State) : SameBut [.recorder] s (s.splitLost before) :=
  SameBut.foldl (fun u c => splitChannel_same _ _ _ _ _ u c) _ s

theorem logSuspect_same (s : State) (d : Dest) : SameBut [.recorder] s (s.logSuspect d) :=
  SameBut.foldl (fun s c => logMark_same s c _) _ s

theorem cueBoundary_same (s : State) (c : ChannelNo) :
    SameBut [.control, .tally, .walls, .recorder] s (s.cueBoundary c) := by
  unfold State.cueBoundary
  split
  · exact .refl _ _
  · split
    · exact enterRecording_same _ _ _
    · exact (setChan_same _ _ _).mono (by decide)

theorem recordersAtBoundary_same (s : State) (g : Group) :
    SameBut [.control, .tally, .walls, .recorder] s (s.recordersAtBoundary g) :=
  SameBut.foldl cueBoundary_same _ s

theorem resetChannel_same (s : State) (c : ChannelNo) :
    SameBut [.control, .tally, .recorder] s (s.resetChannel c) := by
  unfold State.resetChannel
  dsimp only
  refine SameBut.trans ?_ ((setChan_same _ c _).mono (by decide))
  split
  · exact .refl _ _
  · refine SameBut.trans ((setChan_same s c { s.chan c with state := .idle, cue := none }).mono
      (by decide)) ?_
    split
    · exact ((bump_same _ _ _ _).comp (issueHalt_same _ c) (by decide) (by decide)).comp
        (raiseRec_same _ c _ _) (qs := [.control]) (ps := [.tally, .recorder]) (by decide) (by decide)
    · exact (issueHalt_same _ c).comp (raiseRec_same _ c _ _) (by decide) (by decide)

theorem resetRecorders_same (s : State) :
    SameBut [.control, .tally, .walls, .recorder] s s.resetRecorders :=
  (SameBut.foldl resetChannel_same _ s).comp (SameBut.foldl (fun s x => compareColour_same s _) _ _)
    (by decide) (by decide)

/-! ### The map -/

theorem sourceShown_same (s : State) (d : Dest) (old new : Option Source) :
    SameBut [.tally, .walls] s (s.sourceShown d old new) :=
  (announceDest_same s d).comp (tallyChange_same _ d old new) (by decide) (by decide)

theorem sourceChanged_same (s : State) (d : Dest) (k : ChangeCause) (old new : Option Source) :
    SameBut [.tally, .walls, .recorder] s (s.sourceChanged d k old new) :=
  (sourceShown_same s d old new).comp (splitRecorders_same _ d k old new) (by decide) (by decide)

theorem clearSource_same (s : State) (d : Dest) :
    SameBut [.map, .tally, .walls] s (s.clearSource d) :=
  (setEntry_same s d _).comp (sourceShown_same _ d _ _) (by decide) (by decide)

theorem writeSource_same (s : State) (d : Dest) (x : Option Source) (k : ChangeCause) :
    SameBut [.map, .tally, .walls, .recorder] s (s.writeSource d x k) := by
  unfold State.writeSource
  dsimp only
  split
  · exact .refl _ _
  · exact (setEntry_same s d _).comp (sourceChanged_same _ d k _ _) (by decide) (by decide)

theorem setSuspect_same (s : State) (d : Dest) (v : Bool) :
    SameBut [.map, .walls] s (s.setSuspect d v) := by
  unfold State.setSuspect
  split
  · exact .refl _ _
  · exact (setEntry_same s d _).comp (announceDest_same _ d) (by decide) (by decide)

theorem setLock_same (s : State) (d : Dest) (v : Option PanelNo) :
    SameBut [.map, .walls] s (s.setLock d v) := by
  unfold State.setLock
  split
  · exact .refl _ _
  · exact (setEntry_same s d _).comp (announceDest_same _ d) (by decide) (by decide)

theorem setProtect_same (s : State) (d : Dest) (v : Level) :
    SameBut [.map, .walls] s (s.setProtect d v) := by
  unfold State.setProtect
  split
  · exact .refl _ _
  · exact (setEntry_same s d _).comp (announceDest_same _ d) (by decide) (by decide)

/-! ### Takes -/

theorem sendMatrix_same (s : State) (m : MatrixMsg) : SameBut [.link] s (s.sendMatrix m) :=
  withLink_same s _

theorem dropWaiting_same (s : State) (d : Dest) : SameBut [.link] s (s.dropWaiting d) :=
  withLink_same s _

theorem accountTake_same (s : State) (k : SlotNo) (r : TakeResult) (b : Bool) :
    SameBut [.control, .salvos] s (s.accountTake k r b) := by
  unfold State.accountTake
  dsimp only
  split
  · exact (setSlot_same s k _).comp (raise_same _ _) (by decide) (by decide)
  · exact (setSlot_same s k _).mono (by decide)

theorem reportTake_same (s : State) (d : Dest) (ticket : Word16) (tag : Option SlotNo) (r : TakeResult)
    (b : Bool) : SameBut [.control, .salvos] s (s.reportTake d ticket tag r b) := by
  unfold State.reportTake
  split
  · exact (raise_same s _).mono (by decide)
  · split
    · exact accountTake_same s _ _ _
    · exact .refl _ _

theorem endNext_same (s : State) (d : Dest) (r : TakeResult) :
    SameBut [.control, .map, .salvos] s (s.endNext d r) := by
  unfold State.endNext
  split
  · exact .refl _ _
  · exact (setEntry_same s d _).comp (reportTake_same _ _ _ _ _ _) (by decide) (by decide)

theorem placeHeld_same (s : State) (d : Dest) (n : NextTake) (pl : Placement) :
    SameBut [.map, .walls] s (s.placeHeld d n pl) :=
  (setEntry_same s d _).comp (announceDest_same _ d) (by decide) (by decide)

theorem promote_same (s : State) (d : Dest) :
    SameBut [.control, .map, .walls, .salvos] s (s.promote d) := by
  unfold State.promote
  split
  · exact .refl _ _
  · split
    · exact (setEntry_same s d _).comp (placeHeld_same _ d _ _) (by decide) (by decide)
    · exact (endNext_same s d _).mono (by decide)

theorem endPending_same (s : State) (d : Dest) (r : TakeResult) :
    SameBut [.control, .map, .walls, .salvos, .link] s (s.endPending d r) := by
  unfold State.endPending
  split
  · exact .refl _ _
  · rename_i p _
    have h1 : SameBut [.map, .link] s (if p.phase = .waiting
        then (s.setEntry d { s.entry d with pending := none }).dropWaiting d
        else s.setEntry d { s.entry d with pending := none }) := by
      split
      · exact (setEntry_same s d _).comp (dropWaiting_same _ d) (by decide) (by decide)
      · exact (setEntry_same s d _).mono (by decide)
    have h2 := h1.comp ((announceDest_same _ d).comp (reportTake_same _ d p.ticket p.tag r p.deferred)
      (rs := [.control, .walls, .salvos]) (by decide) (by decide))
      (rs := [.control, .map, .walls, .salvos, .link]) (by decide) (by decide)
    dsimp only
    split
    · exact h2
    · exact h2.trans ((promote_same _ d).mono (by decide))

theorem setPending_same (s : State) (d : Dest) (p : Pending) : SameBut [.map] s (s.setPending d p) :=
  setEntry_same s d _

theorem requestToken_same (s : State) (d : Dest) : SameBut [.map, .link] s (s.requestToken d) := by
  unfold State.requestToken
  split
  · exact .refl _ _
  · split
    · exact ((setToken_same s _ _).comp (setPending_same _ d _) (by decide) (by decide)).trans
        ((sendMatrix_same _ _).mono (by decide))
    · exact (setPending_same s d _).comp (withLink_same _ _) (by decide) (by decide)

theorem grantWaiting_same (s : State) (d : Dest) (t : Token) :
    SameBut [.map, .link] s (s.grantWaiting d t) := by
  unfold State.grantWaiting
  split
  · exact .refl _ _
  · exact (setPending_same s d _).comp (sendMatrix_same _ _) (by decide) (by decide)

theorem freeToken_same (s : State) (t : Token) : SameBut [.map, .link] s (s.freeToken t) := by
  unfold State.freeToken
  split
  · exact (setToken_same s t _).mono (by decide)
  · exact ((setToken_same s t _).trans (withLink_same _ _)).comp (grantWaiting_same _ _ t)
      (by decide) (by decide)

theorem dispatchDue_same (s : State) (ds : List Dest) : SameBut [.map, .link] s (s.dispatchDue ds) := by
  refine SameBut.foldl (fun s d => ?_) ds s
  split
  · exact requestToken_same s d
  · exact .refl _ _

theorem arrive_same (s : State) (d : Dest) (n : NextTake) (pl : Placement) :
    SameBut [.control, .map, .walls, .salvos, .link] s (s.arrive d n pl).2 := by
  unfold State.arrive
  split
  · exact (placeHeld_same s d n pl).mono (by decide)
  · split
    · exact (endPending_same s d _).trans ((placeHeld_same _ d n pl).mono (by decide))
    · exact (endNext_same s d _).comp (setEntry_same _ d _) (by decide) (by decide)

theorem timeOut_same (s : State) (d : Dest) :
    SameBut [.control, .map, .walls, .salvos, .link, .recorder] s (s.timeOut d) := by
  unfold State.timeOut
  split
  · exact .refl _ _
  · rename_i p _
    have h1 : SameBut [.map, .walls, .link] s (match p.token with
        | none => s.setSuspect d true
        | some t => (s.setSuspect d true).setToken t (.stale d)) := by
      split
      · exact (setSuspect_same s d true).mono (by decide)
      · exact (setSuspect_same s d true).comp (setToken_same _ _ _) (by decide) (by decide)
    exact (h1.comp (logSuspect_same _ d) (rs := [.map, .walls, .link, .recorder])
      (by decide) (by decide)).comp (endPending_same _ d _) (by decide) (by decide)

theorem treatTake_same (b : Boundary) (s : State) (d : Dest) :
    SameBut [.control, .map, .walls, .salvos, .link, .recorder] s (s.treatTake b d) := by
  unfold State.treatTake
  split
  · exact .refl _ _
  · split
    · split <;> exact (setPending_same s d _).mono (by decide)
    · exact (setPending_same s d _).mono (by decide)
    · split <;> exact (setPending_same s d _).mono (by decide)
    · split
      · exact timeOut_same s d
      · exact (setPending_same s d _).mono (by decide)

theorem takesAtBoundary_same (s : State) (b : Boundary) :
    SameBut [.control, .map, .walls, .salvos, .link, .recorder] s (s.takesAtBoundary b) := by
  unfold State.takesAtBoundary
  refine (SameBut.foldl (treatTake_same b) _ s).trans (SameBut.foldl (fun s d => ?_) _ _)
  split
  · exact (requestToken_same s d).mono (by decide)
  · exact .refl _ _

/-! ### Reference groups -/

/-- The parts a boundary's followers may change. -/
def followerParts : List Part := [.control, .map, .link, .salvos, .tally, .walls, .recorder]

theorem handOn_same (s : State) (b : Boundary) (order : FollowerOrder) :
    SameBut followerParts s (s.handOn b order) := by
  have ht := fun s : State => (takesAtBoundary_same s b).mono (qs := followerParts) (by decide)
  have hw := fun s : State => (wallsAtBoundary_same s b.group b.frame).mono (qs := followerParts)
    (by decide)
  have hr := fun s : State => (recordersAtBoundary_same s b.group).mono (qs := followerParts)
    (by decide)
  cases order
  · exact ((ht s).trans (hw _)).trans (hr _)
  · exact ((ht s).trans (hr _)).trans (hw _)
  · exact ((hw s).trans (ht _)).trans (hr _)
  · exact ((hw s).trans (hr _)).trans (ht _)
  · exact ((hr s).trans (ht _)).trans (hw _)
  · exact ((hr s).trans (hw _)).trans (ht _)

theorem raiseRef_same (s : State) (g : Group) (k : Option RefKind) :
    SameBut [.control] s (s.raiseRef g k) := by
  cases k
  · exact .refl _ _
  · exact raise_same s _

theorem boundary_same (s : State) (g : Group) (time : Nat) (state : RefState) (p : Nat) (en : Bool)
    (k : Option RefKind) (order : FollowerOrder) :
    SameBut (.groups :: followerParts) s (s.boundary g time state p en k order) := by
  unfold State.boundary
  dsimp only
  split
  · exact .refl _ _
  · exact ((setGrp_same s g _).comp (raiseRef_same _ g k) (rs := [.groups, .control]) (by decide)
      (by decide)).comp (handOn_same _ _ order) (by decide) (by decide)

/-- The parts an event of a reference group may change. -/
def groupParts : List Part := .now :: .groups :: followerParts

theorem expireTolerance_same (s : State) (g : Group) (order : FollowerOrder) :
    SameBut groupParts s (s.expireTolerance g order) :=
  (clock_same s _).comp (boundary_same _ g _ _ _ _ _ order) (by decide) (by decide)

theorem freewheel_same (s : State) (g : Group) (order : FollowerOrder) :
    SameBut groupParts s (s.freewheel g order) :=
  (clock_same s _).comp (boundary_same _ g _ _ _ _ _ order) (by decide) (by decide)

theorem recapture_same (s : State) (g : Group) (order : FollowerOrder) :
    SameBut groupParts s (s.recapture g order) := by
  unfold State.recapture
  dsimp only
  split
  · exact (boundary_same s g _ _ _ _ _ order).mono (by decide)
  · exact (setGrp_same s g _).comp (raiseRef_same _ g _) (by decide) (by decide)

theorem edge_same (s : State) (g : Group) (order : FollowerOrder) :
    SameBut groupParts s (s.edge g order) := by
  unfold State.edge State.edgeLocked
  dsimp only
  split
  · exact .refl _ _
  · split
    · exact (boundary_same s g _ _ _ _ _ order).mono (by decide)
    · exact (boundary_same s g _ _ _ _ _ order).mono (by decide)
  · exact recapture_same s g order

theorem enableGroup_same (s : State) (g : Group) (q : Geometry) (order : FollowerOrder) :
    SameBut groupParts s (s.enableGroup g q order) :=
  (setGrp_same s g _).comp (boundary_same _ g _ _ _ _ _ order) (by decide) (by decide)

/-! ### The matrix link -/

theorem unmatch_same (s : State) : SameBut [.link] s s.unmatch := withLink_same s _

theorem setLink_same (s : State) (v : LinkState) (k : LinkCause) :
    SameBut [.control, .link] s (s.setLink v k) :=
  (withLink_same s _).comp (raise_same _ _) (by decide) (by decide)

theorem startSurvey_same (s : State) : SameBut [.control, .link] s s.startSurvey :=
  ((withLink_same s _).trans (sendMatrix_same _ _)).comp (raise_same _ _) (by decide) (by decide)

theorem cancelTakes_same (s : State) (d : Dest) :
    SameBut [.control, .map, .walls, .salvos, .link] s (s.cancelTakes d) :=
  (endPending_same s d _).trans ((endNext_same _ d _).mono (by decide))

theorem cancelAll_same (s : State) : SameBut [.control, .map, .walls, .salvos, .link] s s.cancelAll :=
  SameBut.foldl cancelTakes_same _ s

theorem departUp_same (s : State) (k : LinkCause) :
    SameBut [.control, .map, .walls, .salvos, .link] s (s.departUp k) :=
  ((setLink_same s _ k).comp (cancelAll_same _) (by decide) (by decide)).trans
    ((withLink_same _ _).mono (by decide))

theorem leaveSurvey_same (s : State) (k : LinkCause) :
    SameBut [.control, .link] s (s.leaveSurvey k) :=
  (withLink_same s _).comp (setLink_same _ _ k) (by decide) (by decide)

theorem linkDown_same (s : State) (k : LinkCause) :
    SameBut [.control, .map, .walls, .salvos, .link] s (s.linkDown k) := by
  unfold State.linkDown
  split
  · exact .refl _ _
  · exact (leaveSurvey_same s k).mono (by decide)
  · exact departUp_same s k

theorem resetLink_same (s : State) :
    SameBut [.control, .map, .walls, .salvos, .link] s s.resetLink := by
  unfold State.resetLink
  dsimp only
  have h := (linkDown_same s .blockReset).comp (withLink_same (s.linkDown .blockReset)
    { (s.linkDown .blockReset).link with unmatched := 0 })
    (rs := [.control, .map, .walls, .salvos, .link]) (by decide) (by decide)
  split
  · exact h.trans ((startSurvey_same _).mono (by decide))
  · exact h

theorem loseCarrier_same (s : State) :
    SameBut [.control, .map, .walls, .salvos, .link] s s.loseCarrier :=
  (withLink_same s _).comp (linkDown_same _ _) (by decide) (by decide)

theorem surveyReport_same (s : State) (r : Report) :
    SameBut [.map, .tally, .walls, .recorder, .link] s (s.surveyReport r) := by
  unfold State.surveyReport
  split
  · exact (writeSource_same s _ _ _).comp (setSuspect_same _ _ _) (by decide) (by decide)
  · exact (unmatch_same s).mono (by decide)

theorem applyForeign_same (s : State) (d : Dest) (x : Source) (t : Byte) (b : Bool) :
    SameBut [.control, .map, .tally, .walls, .recorder] s (s.applyForeign d x t b) := by
  unfold State.applyForeign
  dsimp only
  have h := (writeSource_same s d (some x) .foreign).comp (setSuspect_same _ d false)
    (rs := [.control, .map, .tally, .walls, .recorder]) (by decide) (by decide)
  split
  · exact h
  · exact h.trans ((raise_same _ _).mono (by decide))

/-- The parts a route report may change. -/
def reportParts : List Part :=
  [.control, .map, .sched, .link, .salvos, .tally, .walls, .recorder]

theorem applyMatched_same (s : State) (d : Dest) (x : Source) (t : Token) (held : Nat) :
    SameBut reportParts s (s.applyMatched d x t held) := by
  unfold State.applyMatched
  split
  · exact .refl _ _
  · exact ((((freeToken_same s t).comp (withSched_same _ _) (rs := reportParts) (by decide)
      (by decide)).trans ((writeSource_same _ d _ _).mono (by decide))).trans
      ((setSuspect_same _ d _).mono (by decide))).trans
      (((endPending_same _ d _).mono (by decide)).trans ((dispatchDue_same _ _).mono (by decide)))

theorem upReport_same (s : State) (r : Report) : SameBut reportParts s (s.upReport r) := by
  unfold State.upReport
  split
  · split
    · exact (unmatch_same s).mono (by decide)
    · split
      · exact applyMatched_same _ _ _ _ _
      · exact (freeToken_same s _).comp (applyForeign_same _ _ _ _ _) (by decide) (by decide)
      · exact (applyForeign_same s _ _ _ _).mono (by decide)
      · exact (unmatch_same s).comp (applyForeign_same _ _ _ _ _) (by decide) (by decide)
  · exact (unmatch_same s).mono (by decide)

theorem report_same (s : State) (r : Report) : SameBut reportParts s (s.report r) := by
  unfold State.report
  split
  · exact .refl _ _
  · exact (surveyReport_same s r).mono (by decide)
  · exact upReport_same s r

theorem clearUndeclared_same (s : State) :
    SameBut [.map, .tally, .walls, .recorder] s s.clearUndeclared :=
  (SameBut.foldl clearSource_same _ s).comp (splitLost_same _ s) (by decide) (by decide)

theorem endSurvey_same (s : State) (a b : Nat) : SameBut reportParts s (s.endSurvey a b) := by
  unfold State.endSurvey
  split
  · exact .refl _ _
  · exact (unmatch_same s).mono (by decide)
  · exact ((withMap_same s _).comp (clearUndeclared_same _) (rs := reportParts) (by decide)
      (by decide)).trans ((setLink_same _ _ _).mono (by decide))

theorem matrixBody_same (s : State) (b : List Byte) : SameBut reportParts s (s.matrixBody b) := by
  unfold State.matrixBody
  split
  · exact report_same s _
  · split
    · exact endSurvey_same s _ _
    · exact (unmatch_same s).mono (by decide)

theorem matrixByte_same (s : State) (b : Byte) : SameBut reportParts s (s.matrixByte b) := by
  unfold State.matrixByte
  dsimp only
  split
  · exact (withLink_same s _).mono (by decide)
  · exact ((withLink_same s _).trans (unmatch_same _)).mono (by decide)
  · exact ((withLink_same s _).comp (matrixBody_same _ _) (rs := reportParts) (by decide)
      (by decide)).trans ((flushHigh_same _).mono (by decide))

theorem matrixGap_same (s : State) : SameBut [.link] s s.matrixGap :=
  (withLink_same s _).trans (unmatch_same _)

theorem endMatrixGap_same (s : State) : SameBut [.link] s s.endMatrixGap := by
  unfold State.endMatrixGap
  split
  · exact matrixGap_same s
  · exact .refl _ _

theorem matrixBytes_same (s : State) (bs : List Byte) : SameBut reportParts s (s.matrixBytes bs) := by
  unfold State.matrixBytes
  dsimp only
  split
  · exact .refl _ _
  · exact (((endMatrixGap_same s).trans (withLink_same _ _)).mono (by decide)).trans
      (SameBut.foldl matrixByte_same bs _)

/-! ### Salvos and triggers -/

theorem fireEntry_same (k : SlotNo) (owner : PanelNo) (pl : Placement) (acc : FireAccount × State)
    (e : Dest × Source) :
    SameBut [.control, .map, .walls, .salvos, .link] acc.2 (fireEntry k owner pl acc e).2 := by
  obtain ⟨a, s⟩ := acc
  unfold fireEntry
  dsimp only
  split
  · exact .refl _ _
  · have h := arrive_same s e.1 ⟨e.2, owner, 0, some k⟩ pl
    split <;> (rename_i heq; rw [heq] at h; exact h)

theorem fireEntries_same (k : SlotNo) (owner : PanelNo) (pl : Placement) (l : List (Dest × Source))
    (acc : FireAccount × State) :
    SameBut [.control, .map, .walls, .salvos, .link] acc.2 (l.foldl (fireEntry k owner pl) acc).2 := by
  induction l generalizing acc with
  | nil => exact .refl _ _
  | cons e l ih => exact (fireEntry_same k owner pl acc e).trans (ih _)

theorem fire_same (s : State) (k : SlotNo) :
    SameBut [.control, .map, .walls, .salvos, .link] s (s.fire k).state := by
  unfold State.fire
  dsimp only
  split
  · exact .refl _ _
  · split
    · exact .refl _ _
    · split
      · exact .refl _ _
      · exact ((fireEntries_same k _ _ _ (FireAccount.start, s)).trans
          ((setSlot_same _ k _).mono (by decide))).trans ((dispatchDue_same _ _).mono (by decide))

/-- The parts a qualified edge may change, beside the input's own record. -/
def edgeParts : List Part :=
  [.control, .map, .link, .salvos, .tally, .walls, .recorder]

theorem edgeAct_same (s : State) (r : Trigger) (rising : Bool) :
    SameBut edgeParts s (s.edgeAct r rising).state := by
  unfold State.edgeAct edgeFire edgeStart edgeStop edgeIdle
  split
  · exact (fire_same s _).mono (by decide)
  · exact (recStart_same s _ _).mono (by decide)
  · exact (recStop_same s _ _).mono (by decide)
  · split
    · exact (recStart_same s _ _).mono (by decide)
    · exact (recStop_same s _ _).mono (by decide)
  · exact .refl _ _

theorem qualify_same (s : State) (i : InputNo) :
    SameBut (.triggers :: edgeParts) s (s.qualify i) := by
  unfold State.qualify
  dsimp only
  have h := ((setTrig_same s i { s.trig i with level := (s.trig i).raw, interval := none }).comp
    (edgeAct_same _ { s.trig i with level := (s.trig i).raw, interval := none } (s.trig i).raw)
    (rs := .triggers :: edgeParts) (by decide) (by decide)).trans
    ((flushHigh_same _).mono (by decide))
  split
  · exact h.trans ((raise_same _ _).mono (by decide))
  · exact h

theorem startInterval_same (s : State) (i : InputNo) :
    SameBut (.triggers :: edgeParts) s (s.startInterval i) := by
  unfold State.startInterval
  dsimp only
  split
  · exact (setTrig_same s i _).comp (qualify_same _ i) (by decide) (by decide)
  · exact (setTrig_same s i _).mono (by decide)

theorem rawChange_same (s : State) (i : InputNo) (b : Bool) :
    SameBut (.triggers :: edgeParts) s (s.rawChange i b) := by
  unfold State.rawChange
  dsimp only
  refine SameBut.trans ((setTrig_same s i { s.trig i with raw := b }).mono (by decide)) ?_
  split
  · exact (setTrig_same _ i _).mono (by decide)
  · split
    · exact startInterval_same _ i
    · exact .refl _ _

end Sys2Proof.Machine
end

