-- ==== Sys2Proof/Laws/Serving.lean ====
section
/-! SUPPORT. The interface: what stands on the outbound line after each of its operations, and what the
step in which an order is served comes to. -/

namespace Sys2Proof.Machine

/-! ### The transmitter -/

/-- All that the transmitter's beginning of a frame can do: move the oldest reply, or with none the
oldest notice, onto an empty line. -/
theorem begin_cases (c : Control) :
    (c.begin = c ∧ (c.line.isSome ∨ c.replies = [] ∧ c.notices = []))
      ∨ (∃ r rs, c.line = none ∧ c.replies = r :: rs
          ∧ c.begin = { c with line := some (.reply r), replies := rs })
      ∨ (∃ n ns, c.line = none ∧ c.replies = [] ∧ c.notices = n :: ns
          ∧ c.begin = { c with line := some (.notice n), notices := ns }) := by
  unfold Control.begin
  split
  · left; simp_all
  · split
    · right; left; exact ⟨_, _, ‹_›, ‹_›, rfl⟩
    · split
      · right; right; exact ⟨_, _, ‹_›, ‹_›, ‹_›, rfl⟩
      · left; simp_all

/-- The beginning of a frame sends nothing twice and loses nothing. -/
@[simp] theorem begin_outReplies (c : Control) : c.begin.outReplies = c.outReplies := by
  obtain ⟨h, -⟩ | ⟨r, rs, hl, hr, h⟩ | ⟨n, ns, hl, hr, hn, h⟩ := begin_cases c
  · rw [h]
  · rw [h]; simp [Control.outReplies, hl, hr]
  · rw [h]; simp [Control.outReplies, hl, hr]

@[simp] theorem begin_outNotices (c : Control) : c.begin.outNotices = c.outNotices := by
  obtain ⟨h, -⟩ | ⟨r, rs, hl, hr, h⟩ | ⟨n, ns, hl, hr, hn, h⟩ := begin_cases c
  · rw [h]
  · rw [h]; simp [Control.outNotices, hl]
  · rw [h]; simp [Control.outNotices, hl, hn]

/-- The fields of the interface that the transmitter does not touch. -/
structure SameDesk (c d : Control) : Prop where
  receiver : d.receiver = c.receiver
  lastByte : d.lastByte = c.lastByte
  orders   : d.orders = c.orders
  serving  : d.serving = c.serving
  enables  : d.enables = c.enables
  discards : d.discards = c.discards
  resetDue : d.resetDue = c.resetDue

theorem SameDesk.refl (c : Control) : SameDesk c c := ⟨rfl, rfl, rfl, rfl, rfl, rfl, rfl⟩

theorem SameDesk.trans {c d e : Control} (h : SameDesk c d) (k : SameDesk d e) : SameDesk c e :=
  ⟨k.1.trans h.1, k.2.trans h.2, k.3.trans h.3, k.4.trans h.4, k.5.trans h.5, k.6.trans h.6,
    k.7.trans h.7⟩

theorem begin_desk (c : Control) : SameDesk c c.begin := by
  obtain ⟨h, -⟩ | ⟨r, rs, hl, hr, h⟩ | ⟨n, ns, hl, hr, hn, h⟩ := begin_cases c <;> rw [h] <;>
    exact ⟨rfl, rfl, rfl, rfl, rfl, rfl, rfl⟩

@[simp] theorem begin_lost (c : Control) : c.begin.lost = c.lost := by
  obtain ⟨h, -⟩ | ⟨r, rs, hl, hr, h⟩ | ⟨n, ns, hl, hr, hn, h⟩ := begin_cases c <;> rw [h]

/-- A notice raised touches neither the orders nor the replies. -/
theorem raise_desk (c : Control) (n : Notice) : SameDesk c (c.raise n) := by
  unfold Control.raise
  split
  · split
    · exact SameDesk.trans (d := { c with notices := c.notices ++ [n] })
        ⟨rfl, rfl, rfl, rfl, rfl, rfl, rfl⟩ (begin_desk _)
    · exact ⟨rfl, rfl, rfl, rfl, rfl, rfl, rfl⟩
  · exact .refl c

@[simp] theorem raise_outReplies (c : Control) (n : Notice) :
    (c.raise n).outReplies = c.outReplies := by
  unfold Control.raise
  split
  · split
    · rw [begin_outReplies]; rfl
    · rfl
  · rfl

/-- A notice of a kind that is on, raised while the queue has room, is the last to be sent. -/
theorem raise_notified {c : Control} {n : Notice} (he : c.enables.getLsbD (kindBit n.kind) = true)
    (hr : c.notices.length < 32) : Notified c (c.raise n) [n] := by
  unfold Control.raise
  rw [if_pos he, if_pos (show c.notices.length < Config.noticeRoom from hr)]
  constructor
  · rw [begin_outNotices]; simp [Control.outNotices]
  · rw [begin_lost]

/-- Notices are only ever added behind those that wait. -/
theorem raise_outNotices_prefix (c : Control) (n : Notice) :
    c.outNotices <+: (c.raise n).outNotices := by
  unfold Control.raise
  split
  · split
    · rw [begin_outNotices]; exact ⟨[n], by simp [Control.outNotices]⟩
    · exact List.prefix_rfl
  · exact List.prefix_rfl

theorem pushReply_desk (c : Control) (r : Reply) : SameDesk c (c.pushReply r) :=
  SameDesk.trans (d := { c with replies := c.replies ++ [r] }) ⟨rfl, rfl, rfl, rfl, rfl, rfl, rfl⟩
    (begin_desk _)

@[simp] theorem pushReply_outReplies (c : Control) (r : Reply) :
    (c.pushReply r).outReplies = c.outReplies ++ [r] := by
  unfold Control.pushReply
  rw [begin_outReplies]; simp [Control.outReplies]

@[simp] theorem pushReply_outNotices (c : Control) (r : Reply) :
    (c.pushReply r).outNotices = c.outNotices := by
  unfold Control.pushReply
  rw [begin_outNotices]; simp [Control.outNotices]

@[simp] theorem pushReply_lost (c : Control) (r : Reply) : (c.pushReply r).lost = c.lost := by
  unfold Control.pushReply; rw [begin_lost]

/-- What an answer that raised nothing leaves of the interface. -/
theorem answered_silent (c : Control) (o : Order) (v : Verdict) (p : List Byte) :
    (c.answered o v p).outNotices = c.outNotices ∧ (c.answered o v p).lost = c.lost := by
  unfold Control.answered
  constructor
  · rw [pushReply_outNotices]; rfl
  · rw [pushReply_lost]

/-! ### MARKS_HIGH -/

@[simp] theorem flushHigh_nil {s : State} (h : s.recorder.high = []) : s.flushHigh = s := by
  unfold State.flushHigh
  simp only [h, List.foldl_nil]
  rw [← h]

/-! ### Serving (R157) -/

theorem Front.orders_eq {s : State} {o : Order} (h : Front s o) :
    s.control.orders = o :: s.control.orders.tail := by
  have := h.front
  cases hc : s.control.orders with
  | nil => simp [hc] at this
  | cons a l => simp [hc] at this; simp [this]

/-- The step in which an order is served, when the row is the order's own. -/
theorem serveIf_front {s : State} {o : Order} (h : Front s o) (τ : Nat) (mine : Order → Bool)
    (act : Order → State → Answer) (hm : mine o = true) :
    s.serveIf τ mine act =
      (act o ((s.clock τ).beginServing o)).state.finishServing o
        (act o ((s.clock τ).beginServing o)).verdict (act o ((s.clock τ).beginServing o)).payload := by
  unfold State.serveIf
  rw [if_pos h.ready, h.orders_eq]
  simp [hm]

theorem serve_front {s : State} {o : Order} {code : Byte} (h : Serving s o code) (τ : Nat)
    (act : Order → State → Answer) :
    s.serve τ code act =
      (act o ((s.clock τ).beginServing o)).state.finishServing o
        (act o ((s.clock τ).beginServing o)).verdict (act o ((s.clock τ).beginServing o)).payload := by
  unfold State.serve
  rw [serveIf_front h.toFront τ _ _ (by simp [h.code])]
  simp [ifFormed, h.formed]

/-- An order whose serving owes no MARKS_HIGH. -/
theorem finishServing_eq {s : State} (h : s.recorder.high = []) (o : Order) (v : Verdict)
    (p : List Byte) :
    s.finishServing o v p = { s with control := s.control.answered o v p } := by
  unfold State.finishServing Control.answered
  rw [flushHigh_nil h]

/-- The step of an order that changes nothing but the interface. -/
theorem serve_quiet {s : State} {o : Order} {code : Byte} (h : Serving s o code) (τ : Nat)
    {act : Order → State → Answer} {v : Verdict} {p : List Byte}
    (ha : act o ((s.clock τ).beginServing o) = ⟨(s.clock τ).beginServing o, v, p⟩) :
    s.serve τ code act = s.answered τ o v p := by
  rw [serve_front h, ha]
  rw [finishServing_eq (s := (s.clock τ).beginServing o) h.owed]
  rfl

/-- The step of an order whose answer changes parts other than the interface, the time and the
recorder unit's debts. -/
theorem serve_answer {s : State} {o : Order} {code : Byte} (h : Serving s o code) (τ : Nat)
    {act : Order → State → Answer} {t : State} {v : Verdict} {p : List Byte}
    (ha : act o ((s.clock τ).beginServing o) = ⟨t, v, p⟩) (ht : t.recorder.high = []) :
    s.serve τ code act = { t with control := t.control.answered o v p } := by
  rw [serve_front h, ha]
  exact finishServing_eq ht o v p

/-- The interface while an order is served differs from the one before only in what is served. -/
theorem beginServing_answered (c : Control) (o : Order) (v : Verdict) (p : List Byte) :
    Control.answered { c with serving := some o } o v p = c.answered o v p := rfl

theorem beginServing_same (s : State) (o : Order) : SameBut [.control] s (s.beginServing o) :=
  withControl_same s _

@[simp] theorem beginServing_recorder (s : State) (o : Order) :
    (s.beginServing o).recorder = s.recorder := rfl
@[simp] theorem beginServing_entry (s : State) (o : Order) (d : Dest) :
    (s.beginServing o).entry d = s.entry d := rfl
@[simp] theorem beginServing_panel (s : State) (o : Order) (d : PanelNo) :
    (s.beginServing o).panel d = s.panel d := rfl
@[simp] theorem beginServing_grp (s : State) (o : Order) (g : Group) :
    (s.beginServing o).grp g = s.grp g := rfl
@[simp] theorem beginServing_slot (s : State) (o : Order) (d : SlotNo) :
    (s.beginServing o).slot d = s.slot d := rfl
@[simp] theorem beginServing_trig (s : State) (o : Order) (d : InputNo) :
    (s.beginServing o).trig d = s.trig d := rfl
@[simp] theorem beginServing_tallyOf (s : State) (o : Order) (d : Source) :
    (s.beginServing o).tallyOf d = s.tallyOf d := rfl
@[simp] theorem beginServing_wall (s : State) (o : Order) (d : WallNo) :
    (s.beginServing o).wall d = s.wall d := rfl
@[simp] theorem beginServing_chan (s : State) (o : Order) (d : ChannelNo) :
    (s.beginServing o).chan d = s.chan d := rfl
@[simp] theorem beginServing_nameOf (s : State) (o : Order) (d : Source) :
    (s.beginServing o).nameOf d = s.nameOf d := rfl

end Sys2Proof.Machine
end

