-- ==== Sys2Proof/Laws/Lists.lean ====
section
/-! SUPPORT. Selecting among numbered records, queuing tiles, and acting on several records one after
the other. -/

namespace Sys2Proof.Machine

/-! ### Selecting -/

theorem mem_selectFrom {α : Type} {n : Nat} (p : α → Bool) (l : List α) (i : Nat) (x : Fin n)
    (h : i + l.length ≤ n) :
    x ∈ selectFrom p i l ↔ i ≤ x.1 ∧ ∃ y, l[x.1 - i]? = some y ∧ p y = true := by
  induction l generalizing i with
  | nil => simp [selectFrom]
  | cons a l ih =>
    simp only [List.length_cons] at h
    have hi : i < n := by omega
    unfold selectFrom
    rw [dif_pos hi]
    have ih' := ih (i + 1) (by omega)
    have key : (x = ⟨i, hi⟩ ∧ p a = true) ∨ x ∈ selectFrom p (i + 1) l ↔
        i ≤ x.1 ∧ ∃ y, (a :: l)[x.1 - i]? = some y ∧ p y = true := by
      rw [ih']
      constructor
      · rintro (⟨rfl, hp⟩ | ⟨hle, y, hy, hp⟩)
        · exact ⟨Nat.le_refl i, a, by simp, hp⟩
        · refine ⟨by omega, y, ?_, hp⟩
          have : x.1 - i = (x.1 - (i + 1)) + 1 := by omega
          rw [this, List.getElem?_cons_succ]; exact hy
      · rintro ⟨hle, y, hy, hp⟩
        by_cases hx : x.1 = i
        · left
          simp only [hx, Nat.sub_self, List.getElem?_cons_zero, Option.some.injEq] at hy
          exact ⟨Fin.ext hx, hy ▸ hp⟩
        · right
          refine ⟨by omega, y, ?_, hp⟩
          have : x.1 - i = (x.1 - (i + 1)) + 1 := by omega
          rw [this, List.getElem?_cons_succ] at hy; exact hy
    by_cases hp : p a = true
    · rw [if_pos hp, List.mem_cons, ← key]; simp [hp]
    · rw [if_neg hp, ← key]; simp [hp]

/-- A number is selected exactly when its record meets the condition. -/
theorem mem_select {α : Type} {n : Nat} (p : α → Bool) (v : Vector α n) (x : Fin n) :
    x ∈ select p v ↔ p v[x] = true := by
  unfold select
  rw [mem_selectFrom p v.toList 0 x (by simp)]
  simp

theorem selectFrom_pairwise {α : Type} {n : Nat} (p : α → Bool) (l : List α) (i : Nat) :
    (selectFrom (n := n) p i l).Pairwise (· < ·) ∧ ∀ x ∈ selectFrom (n := n) p i l, i ≤ x.1 := by
  induction l generalizing i with
  | nil => simp [selectFrom]
  | cons a l ih =>
    unfold selectFrom
    obtain ⟨h1, h2⟩ := ih (i + 1)
    split
    · split
      · refine ⟨List.pairwise_cons.2 ⟨fun x hx => ?_, h1⟩, fun x hx => ?_⟩
        · exact Fin.lt_def.2 (by have := h2 x hx; simp; omega)
        · rcases List.mem_cons.1 hx with rfl | hx
          · exact Nat.le_refl i
          · have := h2 x hx; omega
      · exact ⟨h1, fun x hx => by have := h2 x hx; omega⟩
    · simp

/-- The numbers selected ascend. -/
theorem select_ascending {α : Type} {n : Nat} (p : α → Bool) (v : Vector α n) :
    (select p v).Pairwise (· < ·) := (selectFrom_pairwise p v.toList 0).1

theorem select_nodup {α : Type} {n : Nat} (p : α → Bool) (v : Vector α n) : (select p v).Nodup :=
  (select_ascending p v).imp (fun h => (Fin.ne_of_lt h))

theorem selectFrom_length {α : Type} {n : Nat} (p : α → Bool) (l : List α) (i : Nat)
    (h : i + l.length ≤ n) : (selectFrom (n := n) p i l).length = l.countP p := by
  induction l generalizing i with
  | nil => rfl
  | cons a l ih =>
    simp only [List.length_cons] at h
    have hi : i < n := by omega
    unfold selectFrom
    rw [dif_pos hi, List.countP_cons]
    split
    · simp [*, ih (i + 1) (by omega)]
    · simp [*, ih (i + 1) (by omega)]

/-- As many numbers are selected as records meet the condition. -/
theorem select_length {α : Type} {n : Nat} (p : α → Bool) (v : Vector α n) :
    (select p v).length = v.toList.countP p := selectFrom_length p v.toList 0 (by simp)

/-- The first number selected is the lowest whose record meets the condition. -/
theorem select_head {α : Type} {n : Nat} {p : α → Bool} {v : Vector α n} {x : Fin n}
    (hx : p v[x] = true) (hl : ∀ y : Fin n, p v[y] = true → x ≤ y) :
    (select p v).head? = some x := by
  have hm := (mem_select p v x).2 hx
  have ha := select_ascending p v
  cases hs : select p v with
  | nil => simp [hs] at hm
  | cons a l =>
    rw [hs] at hm ha
    have hap : p v[a] = true := (mem_select p v a).1 (by rw [hs]; exact List.mem_cons_self)
    have h1 := hl a hap
    rcases List.mem_cons.1 hm with rfl | hm
    · rfl
    · have h2 := (List.pairwise_cons.1 ha).1 x hm
      exact absurd h2 (Fin.not_lt.2 h1)

theorem select_eq_nil {α : Type} {n : Nat} {p : α → Bool} {v : Vector α n} :
    select p v = [] ↔ ∀ x : Fin n, p v[x] = false := by
  constructor
  · intro h x
    by_contra hx
    have := (mem_select p v x).2 (by simpa using hx)
    simp [h] at this
  · intro h
    apply List.eq_nil_iff_forall_not_mem.2
    intro x hx
    have := (mem_select p v x).1 hx
    rw [h x] at this; simp at this

/-- The numbers selected when exactly one record meets the condition. -/
theorem select_unique {α : Type} {n : Nat} {p : α → Bool} {v : Vector α n} {x : Fin n}
    (h : ∀ y : Fin n, p v[y] = true ↔ y = x) : select p v = [x] := by
  have hn := select_nodup p v
  have hm : ∀ y, y ∈ select p v ↔ y = x := fun y => (mem_select p v y).trans (h y)
  cases hs : select p v with
  | nil => have := (hm x).2 rfl; simp [hs] at this
  | cons a l =>
    rw [hs] at hm hn
    have ha : a = x := (hm a).1 List.mem_cons_self
    have hl : l = [] := by
      apply List.eq_nil_iff_forall_not_mem.2
      intro y hy
      have hyx : y = x := (hm y).1 (List.mem_cons_of_mem _ hy)
      exact (List.nodup_cons.1 hn).1 (by rw [ha, ← hyx]; exact hy)
    rw [ha, hl]

/-! ### Queuing tiles (R124, R125) -/

theorem wall_queueTile (s : State) (p : WallNo × TileNo) (w : WallNo) :
    (s.queueTile p).wall w = if w = p.1 then (s.wall w).enqueue p.2 else s.wall w := by
  unfold State.queueTile
  rw [State.setWall_wall]
  split
  · subst w; rfl
  · rfl

/-- Queuing touches nothing of a wall but its queue. -/
theorem wall_queueTiles (s : State) (ps : List (WallNo × TileNo)) (w : WallNo) :
    (s.queueTiles ps).wall w = (tilesOn w ps).foldl Wall.enqueue (s.wall w) := by
  unfold State.queueTiles
  induction ps generalizing s with
  | nil => rfl
  | cons p ps ih =>
    rw [List.foldl_cons, ih, wall_queueTile]
    unfold tilesOn
    by_cases h : p.1 = w
    · rw [List.filter_cons_of_pos (by simpa using h), List.map_cons, List.foldl_cons,
        if_pos h.symm]
    · rw [List.filter_cons_of_neg (by simpa using h), if_neg fun e => h e.symm]

theorem foldl_enqueue (l : List TileNo) (r : Wall) (h : l.Nodup) :
    l.foldl Wall.enqueue r = { r with queue := r.queue ++ l.filter (· ∉ r.queue) } := by
  induction l generalizing r with
  | nil => simp
  | cons t l ih =>
    rw [List.nodup_cons] at h
    rw [List.foldl_cons, ih _ h.2]
    unfold Wall.enqueue
    by_cases ht : t ∈ r.queue
    · simp [ht]
    · simp only [if_neg ht, List.append_assoc]
      congr 2
      rw [List.filter_cons_of_pos (by simpa using ht), List.singleton_append]
      congr 1
      apply List.filter_congr
      intro x hx
      have : x ≠ t := fun e => h.1 (e ▸ hx)
      simp [this]

/-- What queuing some tiles, each named once, does to every wall. -/
theorem queueTiles_queued (s : State) {ps : List (WallNo × TileNo)} (h : ps.Nodup) :
    Queued s (s.queueTiles ps) ps := by
  intro w
  rw [wall_queueTiles]
  apply foldl_enqueue
  unfold tilesOn
  apply List.Nodup.map_on _ (h.filter _)
  intro x hx y hy hxy
  simp only [List.mem_filter, decide_eq_true_eq] at hx hy
  exact Prod.ext (hx.2.trans hy.2.symm) hxy

/-- A tile stands in a queue after queuing when it stood there or is named. -/
theorem mem_queueTiles (s : State) (ps : List (WallNo × TileNo)) (w : WallNo) (t : TileNo) :
    t ∈ ((s.queueTiles ps).wall w).queue ↔ t ∈ (s.wall w).queue ∨ (w, t) ∈ ps := by
  rw [wall_queueTiles]
  have key : ∀ (l : List TileNo) (r : Wall),
      t ∈ (l.foldl Wall.enqueue r).queue ↔ t ∈ r.queue ∨ t ∈ l := by
    intro l
    induction l with
    | nil => simp
    | cons a l ih =>
      intro r
      rw [List.foldl_cons, ih]
      unfold Wall.enqueue
      split
      · constructor
        · rintro (h | h) <;> simp [h]
        · rintro (h | h)
          · exact .inl h
          · rcases List.mem_cons.1 h with rfl | h
            · exact .inl ‹_›
            · exact .inr h
      · simp [or_assoc]
  rw [key]
  unfold tilesOn
  constructor
  · rintro (h | h)
    · exact .inl h
    · right
      obtain ⟨x, hx, rfl⟩ := List.mem_map.1 h
      obtain ⟨h1, h2⟩ := List.mem_filter.1 hx
      have : x.1 = w := by simpa using h2
      rw [← this]; exact h1
  · rintro (h | h)
    · exact .inl h
    · exact .inr (List.mem_map.2 ⟨(w, t), List.mem_filter.2 ⟨h, by simp⟩, rfl⟩)

/-! ### One record after the other -/

/-- Acting on several numbered records in turn, each action writing one record only: a record that is
not named is left alone. -/
theorem foldl_untouched {ι α : Type} (get : State → ι → α) (f : State → ι → State)
    (hf : ∀ s i j, j ≠ i → get (f s i) j = get s j) (l : List ι) (s : State) (j : ι) (hj : j ∉ l) :
    get (l.foldl f s) j = get s j := by
  induction l generalizing s with
  | nil => rfl
  | cons i l ih =>
    rw [List.mem_cons, not_or] at hj
    rw [List.foldl_cons, ih _ hj.2, hf s i j hj.1]

end Sys2Proof.Machine
end

