-- ==== Sys2Proof/Laws/Steps.lean ====
section
/-! SUPPORT. What each of the 67 commands leaves alone. -/

namespace Sys2Proof.Machine

/-! ### The shape of a step -/

theorem serveIf_same {ps : List Part} {act : Order → State → Answer}
    (ha : ∀ o s, SameBut ps s (act o s).state) (s : State) (τ : Nat) (mine : Order → Bool) :
    SameBut (.now :: .control :: .recorder :: ps) s (s.serveIf τ mine act) := by
  unfold State.serveIf
  have h0 := SameBut.refl (.now :: .control :: .recorder :: ps) s
  split
  · split
    · exact h0
    · split
      · refine SameBut.trans (t := (s.clock τ).beginServing _) ?_
          (SameBut.trans ((ha _ _).mono fun p hp => ?_) ((finishServing_same _ _ _ _).mono ?_))
        · exact (clock_same s τ).comp (beginServing_same _ _) (by simp) (by simp)
        · simp [hp]
        · simp
      · exact h0
  · exact h0

theorem ifFormed_same {ps : List Part} {act : Order → State → Answer}
    (ha : ∀ o s, SameBut ps s (act o s).state) (o : Order) (s : State) :
    SameBut ps s (ifFormed act o s).state := by
  unfold ifFormed
  split
  · exact ha o s
  · exact .refl _ _

theorem serve_same {ps : List Part} {act : Order → State → Answer}
    (ha : ∀ o s, SameBut ps s (act o s).state) (s : State) (τ : Nat) (code : Byte) :
    SameBut (.now :: .control :: .recorder :: ps) s (s.serve τ code act) :=
  serveIf_same (ifFormed_same ha) s τ _

theorem event_same {ps : List Part} {f : State → State} (hf : ∀ s, SameBut ps s (f s)) (s : State)
    (τ : Nat) : SameBut (.now :: .control :: .recorder :: ps) s (s.event τ f) := by
  unfold State.event
  split
  · exact .refl _ _
  · exact ((clock_same s τ).comp (hf _) (rs := .now :: .control :: .recorder :: ps) (by simp)
      (fun p hp => by simp [hp])).trans ((flushHigh_same _).mono (by simp))

/-- A whole message of the router, in whatever state its receiver is. -/
theorem wholeMessage_same {ps : List Part} {f : State → State} (hf : ∀ s, SameBut ps s (f s)) (s : State)
    (τ : Nat) : SameBut (.now :: .control :: .recorder :: .link :: ps) s (s.wholeMessage τ f) := by
  unfold State.wholeMessage
  split
  · exact event_same (ps := .link :: ps) (fun s => (endMatrixGap_same s).comp (hf _) (by simp)
      (fun p hp => by simp [hp])) s τ
  · exact .refl _ _

theorem expireBefore_same (s : State) (τ : Nat) (g : Group) (order : FollowerOrder) :
    SameBut (.now :: .control :: .recorder :: groupParts) s (s.expireBefore τ g order) := by
  unfold State.expireBefore
  dsimp only
  split
  · exact event_same (fun s => expireTolerance_same s g order) s _
  · exact .refl _ _

/-! ### The orders -/

theorem serveTake_same (o : Order) (s : State) :
    SameBut [.control, .map, .walls, .salvos, .link] s (serveTake o s).state := by
  unfold serveTake
  split
  · rename_i d x p _ _ _
    split
    · exact .refl _ _
    · dsimp only
      have h := arrive_same s d ⟨x, p, o.ticket, none⟩ (s.placement (s.entry d).group)
      split <;> (rename_i heq; rw [heq] at h)
      · exact h
      · exact h.trans ((dispatchDue_same _ _).mono (by decide))
  · exact .refl _ _

theorem serveDestSet_same (o : Order) (s : State) :
    SameBut [.map, .tally, .walls] s (serveDestSet o s).state := by
  unfold serveDestSet answer
  split
  · dsimp only
    split
    · exact .refl _ _
    · dsimp only
      split
      · exact (setEntry_same _ _ _).mono (by decide)
      · exact (setEntry_same _ _ _).comp (tallyClass_same _ _ _ _) (by decide) (by decide)
  · exact .refl _ _

theorem serveLock_same (o : Order) (s : State) : SameBut [.map, .walls] s (serveLock o s).state := by
  unfold serveLock
  split
  · split
    · exact .refl _ _
    · exact setLock_same _ _ _
  · exact .refl _ _

theorem serveUnlock_same (o : Order) (s : State) :
    SameBut [.map, .walls] s (serveUnlock o s).state := by
  unfold serveUnlock
  split
  · split
    · exact .refl _ _
    · split
      · exact setLock_same _ _ _
      · exact .refl _ _
  · exact .refl _ _

theorem serveProtect_same (o : Order) (s : State) :
    SameBut [.map, .walls] s (serveProtect o s).state := by
  unfold serveProtect
  split
  · split
    · exact .refl _ _
    · exact setProtect_same _ _ _
  · exact .refl _ _

theorem servePanelSet_same (o : Order) (s : State) : SameBut [.panels] s (servePanelSet o s).state := by
  unfold servePanelSet
  split
  · exact setPanel_same _ _ _
  · exact .refl _ _

theorem serveRefSet_same (order : FollowerOrder) (o : Order) (s : State) :
    SameBut groupParts s (serveRefSet order o s).state := by
  unfold serveRefSet
  split
  · split
    · exact enableGroup_same _ _ _ _
    · exact (setGrp_same _ _ _).mono (by decide)
  · exact .refl _ _

theorem serveLeadSet_same (o : Order) (s : State) : SameBut [.sched] s (serveLeadSet o s).state :=
  withSched_same s _

theorem serveSalvoOpen_same (o : Order) (s : State) :
    SameBut [.salvos] s (serveSalvoOpen o s).state := by
  unfold serveSalvoOpen
  split
  · dsimp only
    split <;> first | exact setSlot_same _ _ _ | exact .refl _ _
  · exact .refl _ _

theorem serveSalvoPut_same (o : Order) (s : State) :
    SameBut [.salvos] s (serveSalvoPut o s).state := by
  unfold serveSalvoPut answer
  split
  · dsimp only
    split
    · exact .refl _ _
    · split
      · exact .refl _ _
      · split
        · exact setSlot_same _ _ _
        · split <;> first | exact setSlot_same _ _ _ | exact .refl _ _
  · exact .refl _ _

theorem serveSalvoDrop_same (o : Order) (s : State) :
    SameBut [.salvos] s (serveSalvoDrop o s).state := by
  unfold serveSalvoDrop answer
  split
  · dsimp only
    split
    · exact .refl _ _
    · split <;> first | exact setSlot_same _ _ _ | exact .refl _ _
  · exact .refl _ _

theorem serveSalvoArm_same (o : Order) (s : State) :
    SameBut [.salvos] s (serveSalvoArm o s).state := by
  unfold serveSalvoArm answer
  split
  · exact .refl _ _
  · dsimp only
    split <;> first | exact setSlot_same _ _ _ | exact .refl _ _

theorem serveSalvoClear_same (o : Order) (s : State) :
    SameBut [.salvos] s (serveSalvoClear o s).state := by
  unfold serveSalvoClear answer
  split
  · exact .refl _ _
  · split <;> first | exact setSlot_same _ _ _ | exact .refl _ _

theorem serveSalvoFire_same (o : Order) (s : State) :
    SameBut [.control, .map, .walls, .salvos, .link] s (serveSalvoFire o s).state := by
  unfold serveSalvoFire
  split
  · exact .refl _ _
  · exact fire_same _ _

theorem serveTrigSet_same (o : Order) (s : State) : SameBut [.triggers] s (serveTrigSet o s).state := by
  unfold serveTrigSet
  split
  · split
    · exact .refl _ _
    · exact setTrig_same _ _ _
  · exact .refl _ _

theorem serveNameSet_same (o : Order) (s : State) :
    SameBut [.names, .walls] s (serveNameSet o s).state := by
  unfold serveNameSet
  split
  · exact .refl _ _
  · exact (setName_same _ _ _).comp (announceSource_same _ _) (by decide) (by decide)

theorem serveTileSet_same (o : Order) (s : State) :
    SameBut [.map, .walls] s (serveTileSet o s).state := by
  unfold serveTileSet
  split
  · split
    · exact .refl _ _
    · exact (writeTile_same _ _ _ _).trans ((queueTile_same _ _).mono (by decide))
  · exact .refl _ _

theorem serveWallFreeze_same (o : Order) (s : State) :
    SameBut [.walls] s (serveWallFreeze o s).state := by
  unfold serveWallFreeze
  split
  · exact .refl _ _
  · exact setWall_same _ _ _

theorem serveWallThaw_same (o : Order) (s : State) :
    SameBut [.walls] s (serveWallThaw o s).state := by
  unfold serveWallThaw
  split
  · exact .refl _ _
  · exact (setWall_same _ _ _).trans (queueTiles_same _ _)

theorem serveWallSet_same (o : Order) (s : State) : SameBut [.walls] s (serveWallSet o s).state := by
  unfold serveWallSet
  split
  · exact setWall_same _ _ _
  · exact .refl _ _

theorem serveRecBind_same (o : Order) (s : State) : SameBut [.recorder] s (serveRecBind o s).state := by
  unfold serveRecBind answer
  split
  · split
    · exact .refl _ _
    · exact setChan_same _ _ _
  · exact .refl _ _

theorem serveRecStart_same (o : Order) (s : State) :
    SameBut [.control, .tally, .walls, .recorder] s (serveRecStart o s).state := by
  unfold serveRecStart answer
  split
  · exact .refl _ _
  · rename_i c _
    have h := recStart_same s c .order
    split <;> (rename_i heq; rw [heq] at h; exact h)

theorem serveRecStop_same (o : Order) (s : State) :
    SameBut [.control, .tally, .walls, .recorder] s (serveRecStop o s).state := by
  unfold serveRecStop
  split
  · exact .refl _ _
  · exact recStop_same _ _ _

theorem serveRecMarks_same (o : Order) (s : State) :
    SameBut [.recorder] s (serveRecMarks o s).state := by
  unfold serveRecMarks
  split
  · exact .refl _ _
  · exact setChan_same _ _ _

theorem serveNoticeSet_same (o : Order) (s : State) :
    SameBut [.control] s (serveNoticeSet o s).state := by
  unfold serveNoticeSet
  split
  · exact .refl _ _
  · exact withControl_same _ _

theorem serveStatus_same (o : Order) (s : State) : SameBut [.control] s (serveStatus o s).state :=
  withControl_same _ _

theorem serveDeviceReset_same (o : Order) (s : State) :
    SameBut [.control] s (serveDeviceReset o s).state := withControl_same _ _

/-! The orders that read. -/

theorem serveQuery_same (o : Order) (s : State) : SameBut [] s (serveQuery o s).state := by
  unfold serveQuery; split <;> exact .refl _ _
theorem serveSeek_same (o : Order) (s : State) : SameBut [] s (serveSeek o s).state := by
  unfold serveSeek; split <;> exact .refl _ _
theorem servePanelRead_same (o : Order) (s : State) : SameBut [] s (servePanelRead o s).state := by
  unfold servePanelRead; split <;> exact .refl _ _
theorem serveRefRead_same (o : Order) (s : State) : SameBut [] s (serveRefRead o s).state := by
  unfold serveRefRead; split <;> exact .refl _ _
theorem serveLeadRead_same (o : Order) (s : State) : SameBut [] s (serveLeadRead o s).state :=
  .refl _ _
theorem serveSalvoRead_same (o : Order) (s : State) : SameBut [] s (serveSalvoRead o s).state := by
  unfold serveSalvoRead; split <;> exact .refl _ _
theorem serveTrigRead_same (o : Order) (s : State) : SameBut [] s (serveTrigRead o s).state := by
  unfold serveTrigRead; split <;> exact .refl _ _
theorem serveTallyRead_same (o : Order) (s : State) : SameBut [] s (serveTallyRead o s).state := by
  unfold serveTallyRead; split <;> exact .refl _ _
theorem serveWallRead_same (o : Order) (s : State) : SameBut [] s (serveWallRead o s).state := by
  unfold serveWallRead
  split
  · exact .refl _ _
  · split
    · exact .refl _ _
    · split <;> exact .refl _ _
theorem serveRecRead_same (o : Order) (s : State) : SameBut [] s (serveRecRead o s).state := by
  unfold serveRecRead; split <;> exact .refl _ _
theorem serveUnknown_same (o : Order) (s : State) : SameBut [] s (serveUnknown o s).state :=
  .refl _ _

/-- The parts a block reset may change. -/
def blockParts : List Part :=
  [.control, .map, .link, .salvos, .tally, .walls, .recorder, .panels]

theorem resetBlock_same (s : State) (b : Block) : SameBut blockParts s (s.resetBlock b) := by
  cases b
  · exact (resetLink_same s).mono (by decide)
  · intro p hp; cases p <;> first | rfl | exact absurd (by decide) hp
  · exact (resetWalls_same s _).mono (by decide)
  · exact (resetRecorders_same s).mono (by decide)
  · intro p hp; cases p <;> first | rfl | exact absurd (by decide) hp

theorem serveBlockReset_same (o : Order) (s : State) :
    SameBut blockParts s (serveBlockReset o s).state := by
  unfold serveBlockReset
  split
  · exact .refl _ _
  · exact resetBlock_same _ _

/-! ### Every command -/

/-- The parts of the state a command may change. The two steps of the reset pin, and those that reset
the part as it does, may change all but the queue of waiting commands. -/
def footprint : Instr → List Part
  | .resetPinAssert | .resetPinRelease | .controlTxComplete _ | .deviceResetTakesEffect =>
    [.now, .pins, .control, .map, .panels, .groups, .sched, .link, .salvos, .triggers, .tally, .walls,
      .names, .recorder]
  | .controlFrameReceived _ _ | .controlFrameGapTimeout | .unknownOrder _ | .query _ | .seek _
  | .panelRead _ | .refRead _ | .leadRead _ | .salvoRead _ | .trigRead _ | .tallyRead _ | .wallRead _
  | .recRead _ | .noticeSet _ | .status _ | .deviceReset _ | .recBind _ | .recMarks _
  | .recorderTxComplete _ => [.now, .control, .recorder]
  | .take _ | .salvoFire _ => [.now, .control, .recorder, .map, .walls, .salvos, .link]
  | .destSet _ => [.now, .control, .recorder, .map, .tally, .walls]
  | .lock _ | .unlock _ | .protect _ | .tileSet _ => [.now, .control, .recorder, .map, .walls]
  | .panelSet _ => [.now, .control, .recorder, .panels]
  | .refSet _ _ | .refEdge _ _ _ | .toleranceExpiry _ _ | .freewheelBoundary _ _ =>
    [.now, .control, .recorder, .groups, .map, .link, .salvos, .tally, .walls]
  | .overdueEntry _ => [.now, .control, .recorder, .map]
  | .takeTimedOut _ => [.now, .control, .recorder, .map, .walls, .salvos, .link]
  | .takeFallsDue _ => [.now, .control, .recorder, .map, .link]
  | .leadSet _ => [.now, .control, .recorder, .sched]
  | .carrierGain _ => [.now, .control, .recorder, .pins, .link]
  | .carrierLoss _ => [.now, .control, .recorder, .pins, .map, .walls, .salvos, .link]
  | .routeReport _ _ _ _ _ _ | .surveyEnd _ _ _ | .matrixBadFrame _ _ =>
    [.now, .control, .recorder, .map, .sched, .link, .salvos, .tally, .walls]
  | .matrixFrameGapTimeout => [.now, .control, .recorder, .link]
  | .matrixTxComplete _ => [.now, .link]
  | .salvoOpen _ | .salvoPut _ | .salvoDrop _ | .salvoArm _ | .salvoClear _ =>
    [.now, .control, .recorder, .salvos]
  | .trigSet _ => [.now, .control, .recorder, .triggers]
  | .triggerRawChange _ _ _ | .qualifiedEdge _ =>
    [.now, .control, .recorder, .triggers, .map, .link, .salvos, .tally, .walls]
  | .nameSet _ => [.now, .control, .recorder, .names, .walls]
  | .wallFreeze _ | .wallThaw _ | .wallSet _ => [.now, .control, .recorder, .walls]
  | .wallRecordTxComplete _ _ => [.now, .walls]
  | .recStart _ | .recStop _ | .cueEnd _ => [.now, .control, .recorder, .tally, .walls]
  | .blockResetLink _ | .blockResetSalvos _ | .blockResetWalls _ | .blockResetRecorders _
  | .blockResetPanels _ =>
    [.now, .control, .recorder, .map, .link, .salvos, .tally, .walls, .panels]

theorem assertReset_same (s : State) : SameBut (footprint .resetPinAssert) s s.assertReset := by
  intro p hp; cases p <;> first | rfl | exact absurd (by decide) hp

theorem readRaw_same (s : State) (i : InputNo) :
    SameBut (.triggers :: edgeParts) s (s.readRaw i) := by
  unfold State.readRaw
  split
  · exact startInterval_same s i
  · exact .refl _ _

theorem releaseReset_same (s : State) : SameBut (footprint .resetPinRelease) s s.releaseReset := by
  unfold State.releaseReset State.readCarrier
  dsimp only
  have h0 : SameBut (footprint .resetPinRelease) s
      { s with now := 0, pins := { s.pins with reset := false } } := by
    intro p hp; cases p <;> first | rfl | exact absurd (by decide) hp
  refine h0.trans (SameBut.trans (t := List.foldl State.issueHalt _ (List.finRange 16))
    (SameBut.trans ?_ ((SameBut.foldl issueHalt_same _ _).mono (by decide)))
    ((SameBut.foldl readRaw_same _ _).mono (by decide)))
  split
  · exact (startSurvey_same _).mono (by decide)
  · exact .refl _ _

theorem deviceReset_same (s : State) : SameBut (footprint .resetPinRelease) s s.deviceReset :=
  ((withControl_same s _).mono (by decide)).trans
    ((assertReset_same _).trans (releaseReset_same _))

theorem begin_same (s : State) : SameBut [.control] s s.controlSent := withControl_same s _

/-- Every command comes to a next state, in which the parts outside its footprint are as they were. -/
theorem exec_same (c : Instr) (s : State) : ∃ t, exec c s = .next t ∧ SameBut (footprint c) s t := by
  have id : ∃ t, Host.Outcome.next (σ := State) (φ := Fault) (ρ := Refusal) s = .next t
      ∧ SameBut (footprint c) s t := ⟨s, rfl, .refl _ _⟩
  cases c
  case resetPinAssert =>
    show ∃ t, execResetPinAssert s = _ ∧ _
    unfold execResetPinAssert; split
    · exact id
    · exact ⟨_, rfl, assertReset_same s⟩
  case resetPinRelease =>
    show ∃ t, execResetPinRelease s = _ ∧ _
    unfold execResetPinRelease; split
    · exact ⟨_, rfl, releaseReset_same s⟩
    · exact id
  case controlFrameReceived τ bs =>
    exact ⟨_, rfl, (event_same (fun s => controlBytes_same s bs) s τ).mono (by dsimp only [footprint]; decide)⟩
  case controlFrameGapTimeout =>
    show ∃ t, execControlFrameGapTimeout s = _ ∧ _
    unfold execControlFrameGapTimeout; split
    · exact id
    · exact ⟨_, rfl, (event_same controlGap_same s _).mono (by dsimp only [footprint]; decide)⟩
  case unknownOrder τ => exact ⟨_, rfl, serveIf_same serveUnknown_same s τ _⟩
  case take τ => exact ⟨_, rfl, (serve_same serveTake_same s τ _).mono (by dsimp only [footprint]; decide)⟩
  case destSet τ => exact ⟨_, rfl, serve_same serveDestSet_same s τ _⟩
  case lock τ => exact ⟨_, rfl, serve_same serveLock_same s τ _⟩
  case unlock τ => exact ⟨_, rfl, serve_same serveUnlock_same s τ _⟩
  case protect τ => exact ⟨_, rfl, serve_same serveProtect_same s τ _⟩
  case query τ => exact ⟨_, rfl, serve_same serveQuery_same s τ _⟩
  case seek τ => exact ⟨_, rfl, serve_same serveSeek_same s τ _⟩
  case panelSet τ => exact ⟨_, rfl, serve_same servePanelSet_same s τ _⟩
  case panelRead τ => exact ⟨_, rfl, serve_same servePanelRead_same s τ _⟩
  case refSet τ order => exact ⟨_, rfl, (serve_same (serveRefSet_same order) s τ _).mono (by dsimp only [footprint]; decide)⟩
  case refRead τ => exact ⟨_, rfl, serve_same serveRefRead_same s τ _⟩
  case refEdge τ g order =>
    exact ⟨_, rfl, ((expireBefore_same s τ g order).trans
      (event_same (fun s => edge_same s g order) _ τ)).mono (by dsimp only [footprint]; decide)⟩
  case toleranceExpiry g order =>
    show ∃ t, execToleranceExpiry g order s = _ ∧ _
    unfold execToleranceExpiry; split
    · exact ⟨_, rfl, (event_same (fun s => expireTolerance_same s g order) s _).mono (by dsimp only [footprint]; decide)⟩
    · exact id
  case freewheelBoundary g order =>
    show ∃ t, execFreewheelBoundary g order s = _ ∧ _
    unfold execFreewheelBoundary; split
    · exact ⟨_, rfl, (event_same (fun s => freewheel_same s g order) s _).mono (by dsimp only [footprint]; decide)⟩
    · exact id
  case overdueEntry d =>
    show ∃ t, execOverdueEntry d s = _ ∧ _
    unfold execOverdueEntry; split
    · exact id
    · split
      · exact ⟨_, rfl, (event_same (fun s => setPending_same s d _) s _).mono (by dsimp only [footprint]; decide)⟩
      · exact id
  case takeTimedOut d =>
    show ∃ t, execTakeTimedOut d s = _ ∧ _
    unfold execTakeTimedOut; split
    · exact id
    · split
      · exact ⟨_, rfl, (event_same (fun s => (timeOut_same s d).trans
          ((dispatchDue_same _ _).mono (by decide))) s _).mono (by dsimp only [footprint]; decide)⟩
      · exact id
  case takeFallsDue τ =>
    exact ⟨_, rfl, (event_same (fun s => dispatchDue_same s _) s τ).mono (by dsimp only [footprint]; decide)⟩
  case leadSet τ => exact ⟨_, rfl, serve_same serveLeadSet_same s τ _⟩
  case leadRead τ => exact ⟨_, rfl, serve_same serveLeadRead_same s τ _⟩
  case carrierGain τ =>
    show ∃ t, execCarrierGain τ s = _ ∧ _
    unfold execCarrierGain; split
    · exact id
    · refine ⟨_, rfl, ((withPins_same s _).mono (by dsimp only [footprint]; decide)).trans
        ((event_same (ps := [.control, .link]) (fun s => ?_) _ τ).mono (by dsimp only [footprint]; decide))⟩
      split
      · exact startSurvey_same s
      · exact .refl _ _
  case carrierLoss τ =>
    show ∃ t, execCarrierLoss τ s = _ ∧ _
    unfold execCarrierLoss; split
    · refine ⟨_, rfl, SameBut.trans ?_ ((event_same loseCarrier_same _ τ).mono (by dsimp only [footprint]; decide))⟩
      intro p hp; cases p <;> first | rfl | exact absurd (by dsimp only [footprint]; decide) hp
    · exact id
  case routeReport τ a b c d e =>
    exact ⟨_, rfl, (wholeMessage_same (fun s => report_same s _) s τ).mono (by dsimp only [footprint]; decide)⟩
  case surveyEnd τ a b =>
    exact ⟨_, rfl, (wholeMessage_same (fun s => endSurvey_same s _ _) s τ).mono (by dsimp only [footprint]; decide)⟩
  case matrixBadFrame τ bs =>
    exact ⟨_, rfl, (event_same (fun s => matrixBytes_same s bs) s τ).mono (by dsimp only [footprint]; decide)⟩
  case matrixFrameGapTimeout =>
    show ∃ t, execMatrixFrameGapTimeout s = _ ∧ _
    unfold execMatrixFrameGapTimeout; split
    · exact id
    · exact ⟨_, rfl, (event_same matrixGap_same s _).mono (by dsimp only [footprint]; decide)⟩
  case matrixTxComplete τ =>
    show ∃ t, execMatrixTxComplete τ s = _ ∧ _
    unfold execMatrixTxComplete; split
    · exact id
    · refine ⟨_, rfl, SameBut.trans (t := if s.pins.reset then s else s.clock τ) ?_
        ((withLink_same _ _).mono (by dsimp only [footprint]; decide))⟩
      split
      · exact .refl _ _
      · exact (clock_same s τ).mono (by dsimp only [footprint]; decide)
  case salvoOpen τ => exact ⟨_, rfl, serve_same serveSalvoOpen_same s τ _⟩
  case salvoPut τ => exact ⟨_, rfl, serve_same serveSalvoPut_same s τ _⟩
  case salvoDrop τ => exact ⟨_, rfl, serve_same serveSalvoDrop_same s τ _⟩
  case salvoArm τ => exact ⟨_, rfl, serve_same serveSalvoArm_same s τ _⟩
  case salvoClear τ => exact ⟨_, rfl, serve_same serveSalvoClear_same s τ _⟩
  case salvoFire τ => exact ⟨_, rfl, (serve_same serveSalvoFire_same s τ _).mono (by dsimp only [footprint]; decide)⟩
  case salvoRead τ => exact ⟨_, rfl, serve_same serveSalvoRead_same s τ _⟩
  case trigSet τ => exact ⟨_, rfl, serve_same serveTrigSet_same s τ _⟩
  case trigRead τ => exact ⟨_, rfl, serve_same serveTrigRead_same s τ _⟩
  case triggerRawChange τ i b =>
    show ∃ t, execTriggerRawChange τ i b s = _ ∧ _
    unfold execTriggerRawChange; split
    · exact id
    · split
      · exact ⟨_, rfl, (setTrig_same s i _).mono (by dsimp only [footprint]; decide)⟩
      · exact ⟨_, rfl, (event_same (fun s => rawChange_same s i b) s τ).mono (by dsimp only [footprint]; decide)⟩
  case qualifiedEdge i =>
    show ∃ t, execQualifiedEdge i s = _ ∧ _
    unfold execQualifiedEdge; split
    · exact id
    · exact ⟨_, rfl, (event_same (fun s => qualify_same s i) s _).mono (by dsimp only [footprint]; decide)⟩
  case tallyRead τ => exact ⟨_, rfl, serve_same serveTallyRead_same s τ _⟩
  case nameSet τ => exact ⟨_, rfl, serve_same serveNameSet_same s τ _⟩
  case tileSet τ => exact ⟨_, rfl, serve_same serveTileSet_same s τ _⟩
  case wallFreeze τ => exact ⟨_, rfl, serve_same serveWallFreeze_same s τ _⟩
  case wallThaw τ => exact ⟨_, rfl, serve_same serveWallThaw_same s τ _⟩
  case wallSet τ => exact ⟨_, rfl, serve_same serveWallSet_same s τ _⟩
  case wallRead τ => exact ⟨_, rfl, serve_same serveWallRead_same s τ _⟩
  case wallRecordTxComplete τ w =>
    show ∃ t, execWallRecordTxComplete τ w s = _ ∧ _
    unfold execWallRecordTxComplete; split
    · exact id
    · refine ⟨_, rfl, SameBut.trans (t := if s.pins.reset then s else s.clock τ) ?_
        ((setWall_same _ _ _).mono (by dsimp only [footprint]; decide))⟩
      split
      · exact .refl _ _
      · exact (clock_same s τ).mono (by dsimp only [footprint]; decide)
  case recBind τ => exact ⟨_, rfl, (serve_same serveRecBind_same s τ _).mono (by dsimp only [footprint]; decide)⟩
  case recStart τ => exact ⟨_, rfl, (serve_same serveRecStart_same s τ _).mono (by dsimp only [footprint]; decide)⟩
  case recStop τ => exact ⟨_, rfl, (serve_same serveRecStop_same s τ _).mono (by dsimp only [footprint]; decide)⟩
  case cueEnd c =>
    show ∃ t, execCueEnd c s = _ ∧ _
    unfold execCueEnd; split
    · exact ⟨_, rfl, (event_same (fun s => enterRecording_same s c .cueEnd) s _).mono (by dsimp only [footprint]; decide)⟩
    · exact id
  case recMarks τ => exact ⟨_, rfl, (serve_same serveRecMarks_same s τ _).mono (by dsimp only [footprint]; decide)⟩
  case recRead τ => exact ⟨_, rfl, serve_same serveRecRead_same s τ _⟩
  case recorderTxComplete τ =>
    show ∃ t, execRecorderTxComplete τ s = _ ∧ _
    unfold execRecorderTxComplete; split
    · exact id
    · refine ⟨_, rfl, SameBut.trans (t := if s.pins.reset then s else s.clock τ) ?_
        ((withRecorder_same _ _).mono (by dsimp only [footprint]; decide))⟩
      split
      · exact .refl _ _
      · exact (clock_same s τ).mono (by dsimp only [footprint]; decide)
  case noticeSet τ => exact ⟨_, rfl, (serve_same serveNoticeSet_same s τ _).mono (by dsimp only [footprint]; decide)⟩
  case status τ => exact ⟨_, rfl, (serve_same serveStatus_same s τ _).mono (by dsimp only [footprint]; decide)⟩
  case controlTxComplete τ =>
    show ∃ t, execControlTxComplete τ s = _ ∧ _
    unfold execControlTxComplete; split
    · exact id
    · split
      · exact ⟨_, rfl, (begin_same s).mono (by dsimp only [footprint]; decide)⟩
      · split
        · exact ⟨_, rfl, deviceReset_same s⟩
        · exact ⟨_, rfl, ((clock_same s τ).mono (by dsimp only [footprint]; decide)).trans
            ((begin_same _).mono (by dsimp only [footprint]; decide))⟩
  case blockResetLink τ =>
    exact ⟨_, rfl, (serveIf_same (ifFormed_same serveBlockReset_same) s τ _).mono (by dsimp only [footprint]; decide)⟩
  case blockResetSalvos τ =>
    exact ⟨_, rfl, (serveIf_same (ifFormed_same serveBlockReset_same) s τ _).mono (by dsimp only [footprint]; decide)⟩
  case blockResetWalls τ =>
    exact ⟨_, rfl, (serveIf_same (ifFormed_same serveBlockReset_same) s τ _).mono (by dsimp only [footprint]; decide)⟩
  case blockResetRecorders τ =>
    exact ⟨_, rfl, (serveIf_same (ifFormed_same serveBlockReset_same) s τ _).mono (by dsimp only [footprint]; decide)⟩
  case blockResetPanels τ =>
    exact ⟨_, rfl, (serveIf_same (ifFormed_same serveBlockReset_same) s τ _).mono (by dsimp only [footprint]; decide)⟩
  case deviceReset τ => exact ⟨_, rfl, (serve_same serveDeviceReset_same s τ _).mono (by dsimp only [footprint]; decide)⟩
  case deviceResetTakesEffect =>
    show ∃ t, execDeviceResetTakesEffect s = _ ∧ _
    unfold execDeviceResetTakesEffect; split
    · exact ⟨_, rfl, deviceReset_same s⟩
    · exact id

end Sys2Proof.Machine
end

