-- ==== Sys2Proof/Laws/Receiving.lean ====
section
/-! SUPPORT. What a receiver does with the bytes of one frame (R153, R167, R168). -/

namespace Sys2Proof.Machine

/-- The number that two length bytes spell. -/
def spelled (hi lo : Byte) : Nat := hi.toNat * 256 + lo.toNat

theorem spelled_be16 {n : Nat} (h : n < 65536) :
    spelled (BitVec.ofNat 8 (n / 256)) (BitVec.ofNat 8 n) = n := by
  unfold spelled
  simp only [BitVec.toNat_ofNat]
  omega

theorem read16_be16 {n : Nat} (h : n < 65536) (l : List Byte) :
    read16 (be16 n ++ l) 0 = n := spelled_be16 h

/-- The lead byte starts a frame. -/
theorem receiverTake_lead : receiverTake .hunting 0xB4#8 = (.taking [], .nothing) := rfl

theorem receiverTake_high (b : Byte) : receiverTake (.taking []) b = (.taking [b], .nothing) := rfl

/-- The second length byte, of a length in range. -/
theorem receiverTake_low {hi lo : Byte} (h : 6 ≤ spelled hi lo ∧ spelled hi lo ≤ 1024) :
    receiverTake (.taking [hi]) lo = (.taking [hi, lo], .nothing) := by
  unfold spelled at h
  unfold receiverTake receiverJudge
  simp [Config.bodyMin, Config.bodyMax]
  omega

/-- The second length byte, of a length outside the range. -/
theorem receiverTake_range {hi lo : Byte} (h : ¬ (6 ≤ spelled hi lo ∧ spelled hi lo ≤ 1024)) :
    receiverTake (.taking [hi]) lo = (.hunting, .bad) := by
  unfold spelled at h
  unfold receiverTake receiverJudge
  simp [Config.bodyMin, Config.bodyMax]
  omega

/-- A byte of the body, or the first byte of the check. -/
theorem receiverTake_body {hi lo : Byte} {rest : List Byte} {b : Byte}
    (h : 6 ≤ spelled hi lo ∧ spelled hi lo ≤ 1024) (hr : rest.length + 1 < spelled hi lo + 2) :
    receiverTake (.taking (hi :: lo :: rest)) b = (.taking (hi :: lo :: (rest ++ [b])), .nothing) := by
  unfold spelled at h hr
  unfold receiverTake receiverJudge
  simp only [List.cons_append, List.length_append, List.length_cons, List.length_nil, Config.bodyMin,
    Config.bodyMax]
  rw [if_neg (by omega), if_pos (by omega)]

/-- The last byte of the check. -/
theorem receiverTake_last {hi lo c0 c1 : Byte} {body : List Byte}
    (h : 6 ≤ spelled hi lo ∧ spelled hi lo ≤ 1024) (hl : body.length = spelled hi lo) :
    receiverTake (.taking (hi :: lo :: (body ++ [c0]))) c1
      = (.hunting, if crc (hi :: lo :: body) = c0 ++ c1 then .body body else .bad) := by
  unfold spelled at h hl
  have e1 : (body ++ [c0] ++ [c1]).take (hi.toNat * 256 + lo.toNat) = body := by
    rw [← hl]; simp
  have e2 : byteAt (body ++ [c0] ++ [c1]) (hi.toNat * 256 + lo.toNat) = c0 := by
    rw [← hl]; simp [byteAt]
  have e3 : byteAt (body ++ [c0] ++ [c1]) (hi.toNat * 256 + lo.toNat + 1) = c1 := by
    rw [← hl]; simp [byteAt]
  unfold receiverTake receiverJudge
  simp only [List.cons_append, Config.bodyMin, Config.bodyMax, e1, e2, e3]
  rw [if_neg (by omega), if_neg (by simp; omega)]
  split <;> rfl

/-- The two bytes of a check are its bits. -/
theorem be16_append (c : Word16) :
    (BitVec.ofNat 8 (c.toNat / 256) : Byte) ++ (BitVec.ofNat 8 c.toNat : Byte) = c := by
  apply BitVec.eq_of_toNat_eq
  have := c.isLt
  simp only [BitVec.toNat_append, BitVec.toNat_ofNat]
  rw [Nat.shiftLeft_eq, ← Nat.shiftLeft_eq, ← Nat.shiftLeft_add_eq_or_of_lt (by omega), Nat.shiftLeft_eq]
  omega

/-! ### The control line -/

theorem controlByte_nothing {s : State} {b : Byte} {r : Receiver}
    (h : receiverTake s.control.receiver b = (r, .nothing)) :
    s.controlByte b = { s with control := { s.control with receiver := r } } := by
  unfold State.controlByte; rw [h]

theorem controlByte_bad {s : State} {b : Byte} {r : Receiver}
    (h : receiverTake s.control.receiver b = (r, .bad)) :
    s.controlByte b = { s with control := { s.control with receiver := r } }.discard := by
  unfold State.controlByte; rw [h]

theorem controlByte_body {s : State} {b : Byte} {r : Receiver} {body : List Byte}
    (h : receiverTake s.control.receiver b = (r, .body body)) :
    s.controlByte b = { s with control := { s.control with receiver := r } }.judgeBody body := by
  unfold State.controlByte; rw [h]

/-- The bytes of a body, and the first of its check, are gathered. -/
theorem controlByte_gather {hi lo : Byte} (h : 6 ≤ spelled hi lo ∧ spelled hi lo ≤ 1024)
    (bs : List Byte) (rest : List Byte) (s : State)
    (hs : s.control.receiver = .taking (hi :: lo :: rest))
    (hl : rest.length + bs.length < spelled hi lo + 2) :
    bs.foldl State.controlByte s
      = { s with control := { s.control with receiver := .taking (hi :: lo :: (rest ++ bs)) } } := by
  induction bs generalizing s rest with
  | nil => simp only [List.foldl_nil, List.append_nil, ← hs]
  | cons b bs ih =>
    simp only [List.length_cons] at hl
    rw [List.foldl_cons,
      controlByte_nothing (by rw [hs]; exact receiverTake_body h (by omega)),
      ih (rest ++ [b]) _ rfl (by simp; omega)]
    simp

/-- A whole frame on the control line, with whatever check: its body is judged when the check is right,
and the frame is discarded and counted when it is wrong. -/
theorem controlByte_frame {s : State} (hs : s.control.receiver = .hunting) {body : List Byte}
    (hb : 6 ≤ body.length ∧ body.length ≤ 1024) (c0 c1 : Byte) :
    (0xB4#8 :: (be16 body.length ++ body ++ [c0, c1])).foldl State.controlByte s
      = if crc (be16 body.length ++ body) = c0 ++ c1 then s.judgeBody body else s.discard := by
  have hsp : spelled (BitVec.ofNat 8 (body.length / 256)) (BitVec.ofNat 8 body.length) = body.length :=
    spelled_be16 (by omega)
  have hr : 6 ≤ spelled (BitVec.ofNat 8 (body.length / 256)) (BitVec.ofNat 8 body.length)
      ∧ spelled (BitVec.ofNat 8 (body.length / 256)) (BitVec.ofNat 8 body.length) ≤ 1024 := by
    rw [hsp]; exact hb
  have hsplit : be16 body.length ++ body ++ [c0, c1]
      = BitVec.ofNat 8 (body.length / 256) :: BitVec.ofNat 8 body.length :: ((body ++ [c0]) ++ [c1]) := by
    simp [be16]
  rw [hsplit, List.foldl_cons, controlByte_nothing (r := .taking []) (by rw [hs]; rfl), List.foldl_cons,
    controlByte_nothing (r := .taking [_]) (receiverTake_high _), List.foldl_cons,
    controlByte_nothing (r := .taking [_, _]) (receiverTake_low hr), List.foldl_append,
    controlByte_gather hr (body ++ [c0]) [] _ rfl (by simp [hsp])]
  simp only [List.foldl_cons, List.foldl_nil, List.nil_append]
  have hlast := receiverTake_last (c0 := c0) (c1 := c1) hr hsp.symm
  have hpre : be16 body.length ++ body
      = BitVec.ofNat 8 (body.length / 256) :: BitVec.ofNat 8 body.length :: body := rfl
  have hback : ({ s with control := { s.control with receiver := Receiver.hunting } } : State) = s := by
    rw [← hs]
  rw [hpre]
  split
  · rename_i hc
    rw [if_pos hc] at hlast
    rw [controlByte_body hlast]
    dsimp only
    rw [hback]
  · rename_i hc
    rw [if_neg hc] at hlast
    rw [controlByte_bad hlast]
    dsimp only
    rw [hback]

/-- Bytes that arrive while the receiver hunts are taken one after the other. -/
theorem controlBytes_hunting {s : State} (hs : s.control.receiver = .hunting) (bs : List Byte) :
    s.controlBytes bs
      = bs.foldl State.controlByte { s with control := { s.control with lastByte := s.now } } := by
  unfold State.controlBytes
  simp [hs]

/-- The order in the body of an order is that order. -/
theorem orderOf_orderBody {o : Order} (h : o.declared < 65536) : orderOf (orderBody o) = o := by
  have h1 := o.ticket.isLt
  cases o with
  | mk code ticket declared payload =>
    simp only [orderOf, orderBody, be16, byteAt, read16, read8, Order.mk.injEq]
    dsimp only at h h1
    refine ⟨rfl, ?_, ?_, rfl⟩
    · apply BitVec.eq_of_toNat_eq
      simp
      omega
    · simp
      omega

end Sys2Proof.Machine
end

