-- ==== Sys2Proof/WellFormed.lean ====
section
/-! DEFINITION. When a command can be what it says: a step in which bytes arrive carries at least one
byte and no more than one whole frame (R167). Every other operand is bounded by its type. The meanings
do not depend on this check: a longer run of bytes is taken byte by byte all the same (R153). -/

namespace Sys2Proof

/-- Lead byte, two length bytes, the longest body, two check bytes (R167). -/
def longestFrame : Nat := Config.bodyMax + 5

/-- A run of bytes that one step may carry. -/
def bytesOk (bytes : List Byte) : Bool := bytes != [] && decide (bytes.length ≤ longestFrame)

/-- A command whose operands are within their ranges. -/
def wellFormed : Instr → Bool
  | .controlFrameReceived _ bytes => bytesOk bytes
  | .matrixBadFrame _ bytes => bytesOk bytes
  | .resetPinAssert | .resetPinRelease | .controlFrameGapTimeout | .unknownOrder _ | .take _
  | .destSet _ | .lock _ | .unlock _ | .protect _ | .query _ | .seek _ | .panelSet _
  | .panelRead _ | .refSet _ _ | .refRead _ | .refEdge _ _ _ | .toleranceExpiry _ _
  | .freewheelBoundary _ _ | .overdueEntry _ | .takeTimedOut _ | .takeFallsDue _ | .leadSet _
  | .leadRead _ | .carrierGain _ | .carrierLoss _ | .routeReport _ _ _ _ _ _ | .surveyEnd _ _ _
  | .matrixFrameGapTimeout | .matrixTxComplete _ | .salvoOpen _ | .salvoPut _ | .salvoDrop _
  | .salvoArm _ | .salvoClear _ | .salvoFire _ | .salvoRead _ | .trigSet _ | .trigRead _
  | .triggerRawChange _ _ _ | .qualifiedEdge _ | .tallyRead _ | .nameSet _ | .tileSet _
  | .wallFreeze _ | .wallThaw _ | .wallSet _ | .wallRead _ | .wallRecordTxComplete _ _
  | .recBind _ | .recStart _ | .recStop _ | .cueEnd _ | .recMarks _ | .recRead _
  | .recorderTxComplete _ | .noticeSet _ | .status _ | .controlTxComplete _ | .blockResetLink _
  | .blockResetSalvos _ | .blockResetWalls _ | .blockResetRecorders _ | .blockResetPanels _
  | .deviceReset _ | .deviceResetTakesEffect => true

end Sys2Proof
end

