-- ==== Sys2Proof/Tests/Slice0.lean ====
section
/-! SUPPORT. Tests of the model against figures that the spec works out, and for each statement that has
hypotheses a concrete state and operands that meet them, clause by clause. -/

namespace Sys2Proof.Tests

set_option Elab.async false

open Sys2Proof Sys2Proof.Machine

/-! ### Well-formed commands -/

/-- A step in which no byte arrives is refused. -/
theorem test_wellFormed_noBytes : wellFormed (.controlFrameReceived 0 []) = false := by decide
/-- More bytes than the longest frame of R167, lead 1 + length 2 + body 1024 + check 2, are refused. -/
theorem test_wellFormed_tooMany :
    wellFormed (.controlFrameReceived 0 (List.replicate 1030 0)) = false
      ∧ wellFormed (.matrixBadFrame 0 (List.replicate 1030 0)) = false := by decide +kernel
theorem test_wellFormed_matrixNoBytes : wellFormed (.matrixBadFrame 0 []) = false := by decide
theorem test_wellFormed_longest :
    wellFormed (.controlFrameReceived 0 (List.replicate 1029 0)) = true := by decide +kernel

/-! ### States to test from -/

/-- The geometry of the worked figures: F = 1,080,000, S = 6,720 (R27). -/
def geo : Geometry := ⟨960, 1125, 7, 2700, 3⟩

/-- Group A of section 3.8, LOCKED in frame 1000, which began at 0. -/
def groupA : GroupRec := ⟨.locked, some geo, none, 1080000, 1000, some 0⟩

/-- The part at work: 16 destinations and sources declared, the link UP, group A as above, Λ = 5,400,
k = 3, G = 2,700 and C = 3. -/
def up : State :=
  { State.reset with
    now := 1075000
    pins := ⟨false, true⟩
    map := { CrosspointMap.reset with dests := 16, sources := 16 }
    groups := (Vector.replicate 4 GroupRec.reset).set 0 groupA
    sched := ⟨5400, 3, 2700, 3⟩
    link := { Link.reset with state := .up } }

/-- An order with ticket 40. -/
def ord (code : Byte) (payload : List Byte) : Order := Order.of code 40 payload

/-- A state whose order buffer holds just that order. -/
def holding (s : State) (code : Byte) (payload : List Byte) : State :=
  { s with control := { s.control with orders := [ord code payload] } }

/-- The order is of its form and may be served. -/
abbrev Serves (s : State) (code : Byte) (payload : List Byte) : Prop :=
  Serving (holding s code payload) (ord code payload) code

theorem serves_of {s : State} {code : Byte} {payload : List Byte} (h1 : s.pins.reset = false)
    (h2 : s.control = Control.reset) (h3 : s.recorder.high = [])
    (h4 : (ord code payload).formed = true) : Serves s code payload where
  ready := by simp [State.canServe, holding, h1, h2, Control.reset, Config.replyRoom]
  front := rfl
  owed := h3
  code := rfl
  formed := h4

/-- A destination entry with a pending take. -/
def withTake (s : State) (d : Dest) (p : Pending) : State :=
  s.setEntry d { s.entry d with pending := some p }

/-- A take of source 5 for panel 0, in a phase. -/
def aTake (phase : Phase) (token : Option Token) : Pending :=
  ⟨5, 0, 40, none, phase, token, 0, 1078620, 1, none, none, false⟩

theorem up_entry (d : Dest) : up.entry d = Entry.reset := by
  simp [up, State.entry, CrosspointMap.reset]

theorem up_token (k : Token) : up.token k = .free := by
  simp [up, State.token, Link.reset]

/-- The next state of a command, for tests. -/
def after (c : Instr) (s : State) : State :=
  match exec c s with
  | .next t => t
  | _ => s

/-- The replies an order brings, in a state that holds it. -/
def replied (c : Instr) (s : State) (code : Byte) (payload : List Byte) : List (Verdict × List Byte) :=
  (after c (holding s code payload)).control.outReplies.map fun r => (r.verdict, r.payload)

/-! ### Figures the spec works out -/

/-- R168: the check of the nine characters "123456789" is 0x29B1. -/
theorem test_crc_checkValue :
    crc [0x31, 0x32, 0x33, 0x34, 0x35, 0x36, 0x37, 0x38, 0x39] = 0x29B1 := by decide +kernel

/-- Section 3.8, its first row: TAKE 12, source 5 at frame 1000, t = 1,075,000 replies SCHEDULED with
landing frame 1001 and n = 1, and the take is HELD with a = 0 and o = 1,078,620. -/
theorem test_take_worked :
    let t := after (.take 1075000) (holding up 0x10 [0, 12, 0, 5, 0])
    (t.entry 12).pending = some (aTake .held none)
      ∧ replied (.take 1075000) up 0x10 [0, 12, 0, 5, 0] = [(.scheduled, [0, 0, 0, 0x03, 0xE9, 1])] := by
  decide +kernel

/-- Section 3.8, the last row: from Λ = 5,400 the measurement m = 4,100 makes Λ = 5,237 (k = 3). -/
theorem test_filter_worked : leadFilter 3 5400 4100 = 5237 := by decide

/-- R56: with k = 0 the new value is the measurement; a floor of a negative quotient goes down. -/
theorem test_filter_ends : leadFilter 0 7 65535 = 65535 ∧ leadFilter 3 8 7 = 7 := by decide

/-- R31: REF_SET (A, 960, 1125, 7, 400,000, 9) stores T = 270,000 and k_ref = 7. -/
theorem test_refSet_clamps :
    (after (.refSet 0 .takesWallsRecorders)
      (holding up 0x20 [0, 3, 192, 4, 101, 0, 7, 0, 6, 26, 128, 9])).grp .a
        = { groupA with staged := some ⟨960, 1125, 7, 270000, 7⟩ } := by decide +kernel

/-- R31: REF_SET (A, 960, 1125, 1125, 2,700, 3) is refused OUT_OF_RANGE. -/
theorem test_refSet_refused :
    replied (.refSet 0 .takesWallsRecorders) up 0x20 [0, 3, 192, 4, 101, 4, 101, 0, 0, 10, 140, 3]
      = [(.outOfRange, [])] := by decide +kernel

/-- R36: a second edge 1 tick after a boundary is early: another boundary, with P = F and JUMP. -/
theorem test_refEdge_early :
    let t := after (.refEdge 1075000 .a .takesWallsRecorders) up
    t.grp .a = { groupA with frame := 1001, last := some 1075000 }
      ∧ t.control.outNotices = [⟨.refState, [0, 3, 1, 0, 3, 233, 0, 16, 122, 192]⟩] := by
  decide +kernel

/-- R35, R40: an edge 800 ticks late is on time, and P rises by an eighth of that (k_ref = 3). -/
theorem test_refEdge_onTime :
    ((after (.refEdge 1080800 .a .wallsTakesRecorders) up).grp .a)
      = { groupA with frame := 1001, last := some 1080800, period := 1080100 } := by decide +kernel

/-- R37: with no edge by E + T, LOSS, and the boundary at E + T. -/
theorem test_toleranceExpiry :
    (after (.toleranceExpiry .a .takesWallsRecorders) up).grp .a
      = { groupA with state := .freewheel, frame := 1001, last := some 1082700 } := by decide +kernel

/-- R38: a freewheel boundary at E keeps P, and the frame count wraps from 16,777,215 to 0 (R28). -/
theorem test_freewheelBoundary :
    (after (.freewheelBoundary .a .takesWallsRecorders)
      (up.setGrp .a { groupA with state := .freewheel, frame := 0xFFFFFF })).grp .a
      = { groupA with state := .freewheel, frame := 0, last := some 1080000 } := by decide +kernel

/-- R51, R76: a take due at its offset is SENT with the lowest token, and its ROUTE_REQ leaves. -/
theorem test_takeFallsDue :
    let t := after (.takeFallsDue 1078620) (withTake up 12 (aTake .held none))
    ((t.entry 12).pending.map fun p => (p.phase, p.token, p.instant))
        = some (.sent, some 0, some 1078620)
      ∧ t.link.outbound = [.routeReq 12 5 0] := by decide +kernel

/-- R51: one tick earlier it is not due. -/
theorem test_takeFallsDue_notYet :
    ((after (.takeFallsDue 1078619) (withTake up 12 (aTake .held none))).entry 12).pending
      = some (aTake .held none) := by decide +kernel

/-- R54: a SENT take with landing countdown 0 enters OVERDUE with countdown C = 3. -/
theorem test_overdueEntry :
    (((after (.overdueEntry 12) (withTake up 12 { aTake .sent (some 3) with landing := 0 })).entry
      12).pending.map fun p => (p.phase, p.overdue)) = some (.overdue, some 3) := by decide +kernel

/-- R55, R60: the take ends TIMED_OUT, code 3; the destination is suspect and the token STALE. -/
theorem test_takeTimedOut :
    let t := after (.takeTimedOut 12)
      (withTake up 12 { aTake .overdue (some 3) with overdue := some 1 })
    ((t.entry 12).suspect, (t.entry 12).pending, t.token 3) = (true, none, .stale 12)
      ∧ t.control.outNotices = [⟨.takeDone, [0, 12, 0, 40, 3, 0, 0, 0, 3, 232]⟩] := by decide +kernel

/-- R81, R58: the matched report of section 3.8's last row: Λ = 5,237, source 8, CONFIRMED. -/
theorem test_routeReport_matched :
    let s := { withTake up 12 { aTake .sent (some 16) with source := 8, instant := some 0 } with
      now := 10200 }
    let t := after (.routeReport 10200 12 8 17 6100 0) (s.setToken 16 .inUse)
    (t.sched.lead, (t.entry 12).source, (t.entry 12).pending, t.token 16) = (5237, some 8, none, .free)
      ∧ t.control.outNotices = [⟨.takeDone, [0, 12, 0, 40, 0, 0, 0, 0, 3, 232]⟩] := by decide +kernel

/-- R80, R83: a report with an unknown token is applied as foreign and counted. -/
theorem test_routeReport_unknown :
    let t := after (.routeReport 0 12 8 17 0 0) up
    ((t.entry 12).source, t.link.unmatched) = (some 8, 1) := by decide +kernel

/-- R71: counts of 0 and 2000 are clamped to 1 and 1024. -/
theorem test_surveyEnd_clamps :
    let t := after (.surveyEnd 0 0 2000) { up with link := { up.link with state := .surveying } }
    (t.map.dests, t.map.sources, t.link.state) = (1, 1024, .up) := by decide +kernel

/-- R68: a report 27,001 ticks after the last byte of a frame that was never finished counts that frame
and is taken; one tick sooner the line is still busy with it. -/
theorem test_routeReport_afterGap :
    let s := { up with now := 0, link := { up.link with receiver := .taking [0] } }
    let t := after (.routeReport 27001 12 8 0 0 0) s
    ((t.entry 12).source, t.link.unmatched, t.link.receiver) = (some 8, 1, .hunting)
      ∧ ((after (.routeReport 27000 12 8 0 0 0) s).entry 12).source = none := by decide +kernel

/-- R143, R146: a FOREIGN report splits the clip of the channel that records destination 12: SPLIT with
clip 42, and a mark, its 24th, whose MARKS_HIGH follows FOREIGN, and goes before what the next frame of
the same run raises. -/
theorem test_routeReport_splits :
    let mark : Mark := ⟨.stop, .a, 0, 0, none, none⟩
    let on := { up with control := { Control.reset with enables := 0xFF } }
    let s := on.setChan 4 { Channel.reset with
      bound := some 12, clip := 41, state := .recording, marks := List.replicate 23 mark }
    let t := after (.routeReport 0 12 8 0 0 0) s
    t.recorder.line = some ⟨4, .split 42 .a 1000⟩
      ∧ (t.chan 4).marks.drop 23 = [⟨.foreign, .a, 1000, 42, some none, some (some 8)⟩]
      ∧ t.control.outNotices.map (·.kind) = [.foreign, .marksHigh]
      ∧ (after (.matrixBadFrame 0 (frameOf [0x81, 0, 0, 12, 0, 8, 0, 0, 0]
          ++ frameOf [0x81, 0, 0, 12, 0, 9, 0, 0, 0])) s).control.outNotices.map (·.kind)
        = [.foreign, .marksHigh, .foreign] := by decide +kernel

/-- R71, R137: the SPLITs of one SURVEY_END are issued in ascending order of channel: channel 3 on
destination 401 before channel 5 on destination 400. -/
theorem test_surveyEnd_splits :
    let recording (d : Dest) : Channel := { Channel.reset with bound := some d, state := .recording }
    let s := ((({ up with link := { up.link with state := .surveying } }.setEntry 400 { Entry.reset with
      source := some 5 }).setEntry 401 { Entry.reset with source := some 6 }).setChan 5
        (recording 400)).setChan 3 (recording 401)
    let t := after (.surveyEnd 0 16 16) s
    t.recorder.outbound = [⟨3, .split 1 .a 1000⟩, ⟨5, .split 1 .a 1000⟩]
      ∧ (t.chan 5).marks = [⟨.lost, .a, 1000, 1, some (some 5), some none⟩] := by decide +kernel

/-- R37, R39: an edge one tick after E + T finds the group freewheeling, and is within T of its
boundary. -/
theorem test_refEdge_afterExpiry :
    let t := after (.refEdge 1082701 .a .takesWallsRecorders) up
    t.grp .a = { groupA with frame := 1001, last := some 1082700 }
      ∧ t.control.outNotices.map (fun n => n.payload[1]?) = [some 1, some 2] := by decide +kernel

/-- R69: SURVEYING, with SURVEY_REQ on the line, whose body R174 gives. -/
theorem test_carrierGain :
    let t := after (.carrierGain 0)
      { up with pins := ⟨false, false⟩, link := { up.link with state := .down } }
    (t.link.state, t.link.line.map MatrixMsg.body)
      = (.surveying, some [0x02, 0x00, 0xFF, 0xFF, 0xFF, 0xFF]) := by decide +kernel

/-- R72: the departure frees the tokens and cancels the take, code 5, after LINK_STATE. -/
theorem test_carrierLoss :
    let t := after (.carrierLoss 0) ((withTake up 12 (aTake .sent (some 16))).setToken 16 .inUse)
    (t.token 16, (t.entry 12).pending) = (.free, none)
      ∧ t.control.outNotices = [⟨.linkState, [0, 2, 1, 0, 16, 0, 16]⟩,
          ⟨.takeDone, [0, 12, 0, 40, 5, 0, 0, 0, 3, 232]⟩] := by decide +kernel

/-- R73: an idle link with a carrier starts a survey, and the count becomes 0. -/
theorem test_blockResetLink :
    let t := after (.blockResetLink 0)
      (holding { up with link := { up.link with unmatched := 9 } } 0x58 [0, 3])
    (t.link.state, t.link.unmatched) = (.surveying, 0) := by decide +kernel

/-- R174: ROUTE_REQ spells its token as 1 to 255. -/
theorem test_routeReq_body :
    (MatrixMsg.routeReq 511 1023 254).body = [1, 255, 1, 255, 3, 255] := by decide

/-- R68: a frame whose length is 5 is counted at its second length byte. -/
theorem test_matrixBadFrame :
    (after (.matrixBadFrame 0 [0xB4, 0, 5]) up).link.unmatched = 1 := by decide +kernel

/-- R24: from 511 UP, the end of the map ends the walk: not stopped, index 511, 511 left. -/
theorem test_seek_endOfMap :
    replied (.seek 0) up 0x16 [1, 255, 0, 2, 0, 2, 0, 0, 0] = [(.done, [0, 1, 255, 1, 255])] := by
  decide +kernel

/-- R24: NONE is met at once, and a count of 0 is taken as 1. -/
theorem test_seek_firstEntry :
    replied (.seek 0) up 0x16 [0, 7, 1, 0, 0, 0, 255, 255, 0] = [(.done, [1, 0, 7, 0, 0])] := by
  decide +kernel

/-- R22: a panel of level 2 that asks for level 0 sets its own level. -/
theorem test_protect_ownLevel :
    let s := up.setPanel 4 ⟨true, 2, 0, 511, 511, 0⟩
    replied (.protect 0) s 0x14 [0, 3, 4, 0] = [(.done, [2])] := by decide +kernel

/-- R21: an enabled panel of level 0 releases any lock; R20, R16: another panel is refused LOCKED. -/
theorem test_lock_unlock :
    let s := up.setEntry 3 { Entry.reset with lock := some 9 }
    replied (.lock 0) s 0x12 [0, 3, 0] = [(.locked, [])]
      ∧ ((after (.unlock 0) (holding s 0x13 [0, 3, 0])).entry 3).lock = none := by decide +kernel

/-- R110, R113: PROGRAM on a destination that carries source 5 makes 5 RED. -/
theorem test_destSet_tally :
    let t := after (.destSet 0)
      (holding (up.setEntry 3 { Entry.reset with source := some 5 }) 0x11 [0, 3, 1, 0])
    t.tallyOf 5 = ⟨1, 0, 0, .red⟩ := by decide +kernel

/-- R14: a bound above 511 is stored as 511. -/
theorem test_panelSet_clamps :
    (after (.panelSet 0) (holding up 0x18 [4, 2, 3, 0, 0, 255, 255, 1, 255, 0, 0])).panel 4
      = ⟨true, 3, 0, 511, 511, 0⟩ := by decide +kernel

/-- R23, R172: QUERY of a destination that holds nothing. -/
theorem test_query_empty :
    replied (.query 0) up 0x15 [0, 3] = [(.done, [1, 255, 255, 0, 0, 3, 255, 0, 0, 255, 255, 255, 255,
      255, 255, 255, 255, 255, 255, 255, 255, 0, 255, 255, 255, 255, 255, 255, 0])] := by decide +kernel

/-- R63: k, G and C are brought into their ranges. -/
theorem test_leadSet_clamps :
    (after (.leadSet 0) (holding up 0x22 [255, 255, 9, 255, 255, 0])).sched = ⟨65535, 7, 16383, 1⟩ := by
  decide +kernel

/-- An armed slot with one entry, for destination 12 and source 5. -/
def armed : State := up.setSlot 3 ⟨.armed, .a, 0, [(12, 5)], 0, none⟩

/-- R94: one accepted and placed, landing frame 1001, and the slot is FIRING. -/
theorem test_salvoFire :
    replied (.salvoFire 1075000) armed 0x35 [3] = [(.scheduled, [1, 1, 0, 0, 255, 0, 0, 3, 233])]
      ∧ ((after (.salvoFire 1075000) (holding armed 0x35 [3])).slot 3).state = .firing := by
  decide +kernel

/-- R96: the only take of a firing that ends returns the slot to ARMED with SALVO_DONE. -/
theorem test_salvoDone :
    let f : Firing := ⟨.a, 1001, 1, 1, 1, 0, 0, none, 0, 0, 0, 0, 0, 0, 0⟩
    let s := ((withTake up 12 { aTake .sent (some 16) with ticket := 0, tag := some 3 }).setToken 16
      .inUse).setSlot 3 ⟨.firing, .a, 0, [(12, 5)], 1, some f⟩
    let t := after (.routeReport 1080000 12 6 17 0 0) s
    (t.slot 3).state = .armed ∧ t.control.outNotices = [⟨.salvoDone,
      [3, 0, 0, 3, 233, 1, 1, 1, 0, 0, 255, 0, 0, 1, 0, 0, 0, 0]⟩] := by decide +kernel

/-- R88, R89, R90, R91, R92: the life of a slot, by its replies. -/
theorem test_salvo_build :
    let q (st : SlotState) (l : List (Dest × Source)) := up.setSlot 3 ⟨st, .a, 0, l, 0, none⟩
    replied (.salvoOpen 0) (q .empty []) 0x30 [3, 0, 0] = [(.done, [0, 0, 0])]
      ∧ replied (.salvoPut 0) (q .opened [(12, 5)]) 0x31 [3, 0, 12, 0, 6] = [(.done, [0, 1])]
      ∧ replied (.salvoDrop 0) (q .opened [(12, 5)]) 0x32 [3, 0, 11] = [(.notFound, [])]
      ∧ replied (.salvoArm 0) (q .opened []) 0x33 [3] = [(.salvoState, [])]
      ∧ replied (.salvoClear 0) (q .firing [(12, 5)]) 0x34 [3] = [(.salvoState, [])] := by
  decide +kernel

/-- Input 2 of chapter 5's worked sequence: FIRE, slot 3, Q = 10, notices on. -/
def input2 (interval : Option Interval) (level raw : Bool) : Trigger :=
  ⟨.fire, some 3, 10, true, level, interval, raw⟩

/-- The bouncing contact: raw high at 1,060,000 starts an interval there. -/
theorem test_rawChange_starts :
    (after (.triggerRawChange 1060000 2 true)
      ({ up with now := 1050000 }.setTrig 2 (input2 none false false))).trig 2
      = input2 (some ⟨1060000, 10⟩) false true := by decide +kernel

/-- The bounce back at 1,050,000 abandons the interval. -/
theorem test_rawChange_abandons :
    (after (.triggerRawChange 1050000 2 false)
      ({ up with now := 1000000 }.setTrig 2 (input2 (some ⟨1000000, 10⟩) false true))).trig 2
      = input2 none false false := by decide +kernel

/-- The expiry at 1,330,000: the level is high and the fire request is made. -/
theorem test_qualifiedEdge_fires :
    let t := after (.qualifiedEdge 2) (armed.setTrig 2 (input2 (some ⟨1060000, 10⟩) false true))
    t.now = 1330000 ∧ t.trig 2 = input2 none true true ∧ (t.slot 3).state = .firing := by
  decide +kernel

/-- R104: in NOTICE_ONLY the target given is not used. -/
theorem test_trigSet_noTarget :
    replied (.trigSet 0) up 0x38 [7, 4, 99, 10, 2] = [(.done, [7, 4, 255, 10, 1, 0])] := by
  decide +kernel

/-- R121: a character outside 0x20 to 0x7E becomes the question mark. -/
theorem test_nameSet_char :
    ((after (.nameSet 0) (holding up 0x40 [0, 5, 0x1F, 0x20, 0x7E, 0x7F, 65, 66, 67, 68])).nameOf
      5).toList = [0x3F, 0x20, 0x7E, 0x3F, 65, 66, 67, 68] := by decide +kernel

/-- R122, R123: a tile made INVALID has a blank pending and is queued. -/
theorem test_tileSet_invalid :
    let t := after (.tileSet 0) (holding up 0x41 [1, 5, 0, 0, 0])
    t.tile 1 5 = ⟨.invalid, true⟩ ∧ (t.wall 1).queue = [5] := by decide +kernel

/-- R127, R175: the drain of that tile is a BLANK of the frame that begins. -/
theorem test_drain_blank :
    let s := up.setWall 1 { Wall.reset with
      queue := [5], tiles := (Vector.replicate 64 Tile.reset).set 5 ⟨.invalid, true⟩ }
    let t := after (.freewheelBoundary .a .takesWallsRecorders)
      (s.setGrp .a { groupA with state := .freewheel })
    (t.wall 1).line.map WallRecord.body = [[2, 1, 5, 255, 255, 0x20, 0x20, 0x20, 0x20, 0x20, 0x20,
      0x20, 0x20, 3, 0, 3, 0, 3, 233]] ∧ t.tile 1 5 = ⟨.invalid, false⟩ := by decide +kernel

/-- R132: U = 0 is taken as 1 and 17 as 16. -/
theorem test_wallSet_clamps :
    replied (.wallSet 0) up 0x44 [1, 2, 0] = [(.done, [2, 1])]
      ∧ replied (.wallSet 0) up 0x44 [1, 2, 17] = [(.done, [2, 16])] := by decide +kernel

/-- R131: the thaw queues the valid tiles behind those queued. -/
theorem test_wallThaw :
    let s := up.setWall 1 { Wall.reset with
      frozen := true, queue := [9]
      tiles := ((Vector.replicate 64 Tile.reset).set 9 ⟨.fixed 5, false⟩).set 4 ⟨.fixed 6, false⟩ }
    let t := after (.wallThaw 0) (holding s 0x43 [1])
    ((t.wall 1).frozen, (t.wall 1).queue) = (false, [9, 4]) := by decide +kernel

/-- R140, R137: the second start of section 8.9: clip 8, ROLL, RECORDING with lead 0. -/
theorem test_recStart :
    let s := up.setChan 5 { Channel.reset with bound := some 12, clip := 7 }
    let t := after (.recStart 0) (holding s 0x49 [5])
    ((t.chan 5).state, (t.chan 5).clip, t.recorder.line) = (.recording, 8, some ⟨5, .roll 8⟩)
      ∧ replied (.recStart 0) s 0x49 [5] = [(.done, [0, 8, 2, 0])] := by decide +kernel

/-- R142, R137: a stop while the ROLL is still queued removes it. -/
theorem test_recStop_unrolls :
    let s := { up.setChan 5 { Channel.reset with
      bound := some 12, clip := 8, state := .cueing, cue := some 2 } with
        recorder := { (up.setChan 5 { Channel.reset with
          bound := some 12, clip := 8, state := .cueing, cue := some 2 }).recorder with
            line := some ⟨0, .halt 0⟩, queue := [⟨5, .roll 8⟩] } }
    let t := after (.recStop 0) (holding s 0x4A [5])
    (t.recorder.queue, (t.chan 5).state) = ([], .idle) := by decide +kernel

/-- R141: the end of a cue logs START, with the source and no source before. -/
theorem test_cueEnd :
    let s := up.setChan 4 { Channel.reset with
      bound := some 12, clip := 41, state := .cueing, cue := some 1 }
    ((after (.cueEnd 4) s).chan 4).marks = [⟨.start, .a, 1000, 41, none, some none⟩] := by
  decide +kernel

/-- R147: a max of 0 takes one mark. -/
theorem test_recMarks_one :
    let m (c : Word16) : Mark := ⟨.stop, .a, 5, c, some (some 8), none⟩
    let s := up.setChan 4 { Channel.reset with marks := [m 1, m 2], wrapped := true }
    replied (.recMarks 0) s 0x4B [4, 0]
      = [(.done, [1, 1, 1, 1, 0, 0, 0, 5, 0, 1, 0, 8, 255, 254])] := by decide +kernel

/-- R139: a lead above 15 is stored as 15; 0xFFFF unbinds. -/
theorem test_recBind :
    replied (.recBind 0) up 0x48 [15, 255, 255, 200] = [(.done, [255, 255, 15])] := by decide +kernel

/-- R162: STATUS from reset values, with its identity 0x099C, letter A. -/
theorem test_status :
    replied (.status 0) up 0x51 [] = [(.done, [0x09, 0x9C, 0x41, 2, 0, 16, 0, 16, 1, 0, 0, 0, 0, 0, 255,
      0, 0, 0, 0, 0, 0, 0, 0, 0, 0x7B, 1, 0])] := by decide +kernel

/-- R157: an order whose payload is too short is MALFORMED, in its own row. -/
theorem test_malformed : replied (.take 0) up 0x10 [0, 12, 0, 5] = [(.malformed, [])] := by
  decide +kernel

/-- R157: code 0x17 names no order. -/
theorem test_unknownOrder : replied (.unknownOrder 0) up 0x17 [] = [(.unknownOrder, [])] := by
  decide +kernel

/-- R153, R169: LEAD_READ with ticket 40, byte by byte on the line, enters the buffer. -/
theorem test_controlFrame :
    (after (.controlFrameReceived 0
      (frameOf [0x01, 0x23, 0x00, 0x28, 0x00, 0x00, 0x00])) up).control.orders = [ord 0x23 []] := by
  decide +kernel

/-- R164: DEVICE_RESET is answered, and takes effect when its DONE has been sent. -/
theorem test_deviceReset :
    let t := after (.deviceReset 0) (holding up 0x59 [])
    (t.map.dests, (after (.controlTxComplete 0) t).map.dests) = (16, 0) := by decide +kernel

/-- R138: the release of the pin issues HALT for the channels in ascending order. -/
theorem test_resetPinRelease :
    (after .resetPinRelease State.reset).recorder.outbound.map (·.channel) = List.finRange 16 := by
  decide +kernel

/-! ### Witnesses: the machine, the resets and the control line -/

/-- The part held at reset, with any levels on its pins. -/
theorem resetValues (p : Pins) : ResetValues { State.reset with pins := p } where
  now := rfl
  control := rfl
  entries d := by simp [State.entry, State.reset, CrosspointMap.reset, Entry.reset]
  counts := ⟨rfl, rfl⟩
  panels p := by
    simp only [State.panel, State.reset, panelsReset, Fin.getElem_fin]
    rw [Vector.getElem_set]
    by_cases h : p = 0
    · subst h; rfl
    · have h1 : ¬ (0 = p.1) := fun h2 => h (Fin.ext h2.symm)
      simp [h, h1, Panel.off]
  groups g := by cases g <;> rfl
  sched := rfl
  link := ⟨rfl, rfl, rfl, rfl, rfl, rfl⟩
  pool t := by simp [State.token, State.reset, Link.reset]
  slots k := by simp [State.slot, State.reset, Slot.reset]
  triggers i := by simp [State.trig, State.reset, Trigger.reset, Config.qualifyReset]
  tally x := by simp [State.tallyOf, State.reset, Tally.reset]
  walls w := by simp [State.wall, State.reset, Wall.reset]
  tiles w t := by simp [State.tile, State.wall, State.reset, Wall.reset, Tile.reset]
  names x i := by simp [State.nameOf, State.reset, nameReset]
  channels c := by simp [State.chan, State.reset, Recorder.reset, Channel.reset]
  line := ⟨rfl, rfl⟩

theorem witness_StepRunsTheCommandInFront : State.reset.pending = [] := rfl

theorem witness_ResetPinAssertGivesTheResetValues : up.pins.reset = false := rfl

/-- Without a carrier, and with one. -/
theorem witness_ResetPinReleaseStartsOperation :
    (State.reset.pins.reset = true ∧ ResetValues State.reset ∧ State.reset.pins.carrier = false)
      ∧ ∃ s : State, s.pins.reset = true ∧ ResetValues s ∧ s.pins.carrier = true :=
  ⟨⟨rfl, resetValues _, rfl⟩, { State.reset with pins := ⟨true, true⟩ }, rfl, resetValues _, rfl⟩

/-- The pin is held, and a step that leaves it so is taken. -/
theorem witness_EveryStepKeepsThePartHeldAtReset :
    ∃ s t : State, s.pins.reset = true ∧ HeldAtReset s ∧ step s = .next t ∧ t.pins.reset = true :=
  ⟨State.reset, State.reset, rfl, fun _ => resetValues _, rfl, rfl⟩

/-- An order served; an order that stands behind a DEVICE_RESET; the end of the DONE. -/
theorem witness_DeviceResetActsAfterItsReply :
    Serves up 0x59 []
      ∧ (∃ (s : State) (row : Byte × Instr), s.control.resetDue = true ∧ s.control.orders ≠ []
          ∧ row ∈ (0x00, Instr.unknownOrder 7) :: orderRows 7 .takesWallsRecorders)
      ∧ ∃ (s : State) (r : Reply), s.pins.reset = false ∧ s.control.resetDue = true
          ∧ s.control.line = some (.reply r) ∧ r.code = 0x59 ∧ r.verdict = .done := by
  refine ⟨serves_of rfl rfl rfl (by decide),
    ⟨{ up with control := { Control.reset with resetDue := true, orders := [ord 0x10 [0, 1, 0, 2, 0]] } },
      (0x10, .take 7), rfl, by decide, by simp [orderRows]⟩,
    { up with control := { Control.reset with
        resetDue := true, line := some (.reply ⟨0x59, 40, .done, []⟩) } },
    ⟨0x59, 40, .done, []⟩, rfl, rfl, rfl, rfl, rfl⟩

/-- The longest payload, the largest length field, and one place left in the buffer. -/
theorem witness_OrderFrameIsDecodedIntoTheBuffer :
    let s := { up with control := { Control.reset with orders := List.replicate 7 (ord 0x51 []) } }
    let o : Order := ⟨0xFF, 1, 65535, List.replicate 1017 0⟩
    s.pins.reset = false ∧ s.recorder.high = [] ∧ s.control.receiver = .hunting
      ∧ s.control.orders.length < 8 ∧ o.ticket ≠ 0 ∧ o.declared < 65536 ∧ o.payload.length ≤ 1017 := by
  refine ⟨rfl, rfl, rfl, by decide, by decide, by decide,
    le_of_eq List.length_replicate⟩

/-- Ticket 0 and a full buffer, with 15 and with 16 replies waiting. -/
theorem witness_ReceiverAnswersFullAndTicketZero :
    let s (orders replies : Nat) := { up with control := { Control.reset with
      orders := List.replicate orders (ord 0x51 [])
      replies := List.replicate replies ⟨0x51, 40, .done, []⟩ } }
    let o (ticket : Word16) : Order := ⟨0x51, ticket, 0, []⟩
    (∀ m n, (s m n).pins.reset = false ∧ (s m n).recorder.high = []
      ∧ (s m n).control.receiver = .hunting)
      ∧ (∀ t, (o t).declared < 65536 ∧ (o t).payload.length ≤ 1017) ∧ (o 0).ticket = 0
      ∧ 8 ≤ (s 8 16).control.orders.length ∧ ¬ (s 8 16).control.replies.length < 16
      ∧ 8 ≤ (s 8 15).control.orders.length ∧ (s 8 15).control.replies.length < 16
      ∧ (s 0 15).control.replies.length < 16 := by
  refine ⟨fun _ _ => ⟨rfl, rfl, rfl⟩, fun _ => ⟨by simp, by simp⟩, rfl, ?_⟩
  decide

/-- Lengths 5 and 1025, a body of six zeros with a check of 0, a body of 6 bytes, and a reply's body. -/
theorem witness_BadControlFrameIsDiscardedAndCounted :
    up.pins.reset = false ∧ up.recorder.high = [] ∧ up.control.receiver = .hunting
      ∧ (∃ n, n < 65536 ∧ ¬ (6 ≤ n ∧ n ≤ 1024) ∧ [0xB4, 0x00, 0x05] = 0xB4#8 :: be16 n)
      ∧ (∃ n, n < 65536 ∧ ¬ (6 ≤ n ∧ n ≤ 1024) ∧ [0xB4, 0x04, 0x01] = 0xB4#8 :: be16 n)
      ∧ (∃ body c, 6 ≤ body.length ∧ body.length ≤ 1024 ∧ c < 65536
        ∧ c ≠ (crc (be16 body.length ++ body)).toNat
        ∧ 0xB4#8 :: [0, 6, 0, 0, 0, 0, 0, 0, 0, 0] = 0xB4 :: be16 body.length ++ body ++ be16 c)
      ∧ (∃ body : List Byte, 6 ≤ body.length ∧ body.length ≤ 1024 ∧ body.length = 6
          ∧ body.head? = some 0x01)
      ∧ ∃ body : List Byte, 6 ≤ body.length ∧ body.length ≤ 1024 ∧ body.length = 7
          ∧ body.head? ≠ some 0x01 :=
  ⟨rfl, rfl, rfl, ⟨5, by decide⟩, ⟨1025, by decide⟩, ⟨List.replicate 6 0, 0, by decide +kernel⟩,
    ⟨[1, 0x23, 0, 40, 0, 0], by decide⟩, [2, 0x23, 0, 40, 0, 0, 0], by decide⟩

/-- A control frame after its lead byte; a matrix frame after its lead byte, with the link UP; and a time
27,001 ticks after that byte. -/
theorem witness_GapAbandonsTheFrame :
    (∃ s : State, s.pins.reset = false ∧ s.recorder.high = [] ∧ s.control.receiver ≠ .hunting
        ∧ s.control.lastByte + 27000 < max s.now 27001 ∧ s.now = 0)
      ∧ ∃ s : State, s.pins.reset = false ∧ s.recorder.high = [] ∧ s.link.receiver ≠ .hunting
          ∧ s.link.state ≠ .down ∧ s.link.lastByte + 27000 < max s.now 27001 ∧ s.now = 0 :=
  ⟨⟨{ up with now := 0, control := { Control.reset with receiver := .taking [] } }, rfl, rfl, by decide,
      by decide +kernel, rfl⟩,
    { up with now := 0, link := { up.link with receiver := .taking [] } }, rfl, rfl, by decide, by decide,
    by decide +kernel, rfl⟩

/-- An order at the front of the buffer, whatever its form. -/
theorem front_of {s : State} {code : Byte} {payload : List Byte} (h1 : s.pins.reset = false)
    (h2 : s.control = Control.reset) (h3 : s.recorder.high = []) :
    Front (holding s code payload) (ord code payload) where
  ready := by simp [State.canServe, holding, h1, h2, Control.reset, Config.replyRoom]
  front := rfl
  owed := h3

/-- Codes 0x17 and 0x5A name no order; a TAKE one byte short; a BLOCK_RESET one byte long. -/
theorem witness_FormIsTestedBeforeAnOrderIsServed :
    (Front (holding up 0x17 []) (ord 0x17 []) ∧ orderLength 0x17 = none)
      ∧ (Front (holding up 0x5A []) (ord 0x5A []) ∧ orderLength 0x5A = none)
      ∧ (Front (holding up 0x10 [0, 1, 0, 2]) (ord 0x10 [0, 1, 0, 2])
          ∧ (0x10, .take 7) ∈ orderRows 7 .takesWallsRecorders ∧ (ord 0x10 [0, 1, 0, 2]).formed = false)
      ∧ Front (holding up 0x58 [0, 0, 0]) (ord 0x58 [0, 0, 0])
          ∧ (0x58, .blockResetLink 7) ∈ orderRows 7 .takesWallsRecorders
          ∧ (ord 0x58 [0, 0, 0]).formed = false :=
  ⟨⟨front_of rfl rfl rfl, rfl⟩, ⟨front_of rfl rfl rfl, rfl⟩,
    ⟨front_of rfl rfl rfl, by simp [orderRows], by decide⟩, front_of rfl rfl rfl, by simp [orderRows],
    by decide⟩

/-- A high byte of 1, and of 0. -/
theorem witness_NoticeSetReplacesTheEnables :
    (Serves up 0x50 [1, 0xFF] ∧ read8 [1, 0xFF] 0 ≠ 0) ∧ Serves up 0x50 [0, 0xFF]
      ∧ read8 [0, 0xFF] 0 = 0 :=
  ⟨⟨serves_of rfl rfl rfl (by decide), by decide⟩, serves_of rfl rfl rfl (by decide), by decide⟩

theorem witness_StatusReportsAndClearsTheLostFlag : Serves up 0x51 [] :=
  serves_of rfl rfl rfl (by decide)

/-- A reply under way, with a reply behind it, with a notice only, and with neither; before a
DEVICE_RESET has been served and after. -/
theorem witness_TransmitterSendsRepliesBeforeNotices :
    let r : Reply := ⟨0x51, 40, .done, []⟩
    let n : Notice := ⟨.linkState, []⟩
    ∀ x ∈ [([r], [n]), ([], [n]), ([], [])], ∀ due : Bool,
      let s := { up with control := { Control.reset with
        line := some (.reply r), replies := x.1, notices := x.2, resetDue := due } }
      s.pins.reset = false ∧ s.control.line ≠ none ∧ s.control.resetDue = due
        ∧ (s.control.resetDue = true → ∀ q, s.control.line = some (.reply q) →
            ¬ (q.code = 0x59 ∧ q.verdict = .done)) := by
  intro r n x _ due
  refine ⟨rfl, nofun, rfl, fun _ q h => ?_⟩
  obtain rfl : r = q := by simpa using h
  decide

/-- GPI_EDGE is off at reset; LINK_STATE is on, with 31 and with 32 notices waiting. -/
theorem witness_RaisedNoticeIsIgnoredQueuedOrDropped :
    let s (n : Nat) := { up with control := { Control.reset with
      notices := List.replicate n ⟨.linkState, []⟩ } }
    (s 0).control.enables.getLsbD (kindBit .gpiEdge) = false
      ∧ ((s 31).control.enables.getLsbD (kindBit .linkState) = true
          ∧ (s 31).control.notices.length < 32)
      ∧ (s 32).control.enables.getLsbD (kindBit .linkState) = true
          ∧ 32 ≤ (s 32).control.notices.length := by decide

/-- A DISABLED group record, and that of the worked figures. -/
theorem reset_lawful : GroupRec.reset.Lawful := ⟨fun _ => rfl, fun h => absurd rfl h, nofun⟩

theorem groupA_lawful : groupA.Lawful :=
  ⟨nofun, fun _ => ⟨rfl, geo, rfl, ⟨by decide, by decide, by decide, by decide, by decide⟩, by decide,
    by decide⟩, nofun⟩

/-- The lists full, a LOCKED group, and a HALT owed to each of two channels. -/
theorem witness_EveryStepKeepsTheRecordsWithinTheirLimits :
    ∃ s t : State, WithinLimits s ∧ HeldAtReset s ∧ OwedCommandsFit s ∧ s.control.orders.length = 8
      ∧ s.control.replies.length = 16 ∧ s.control.notices.length = 32 ∧ s.recorder.queue.length = 2
      ∧ (s.grp .a).state = .locked ∧ s.pending ≠ [] ∧ step s = .next t := by
  refine ⟨{ up with
    pending := [.carrierLoss 0]
    control := { Control.reset with
      orders := List.replicate 8 (ord 0x51 []), replies := List.replicate 16 ⟨0x51, 40, .done, []⟩
      notices := List.replicate 32 ⟨.linkState, []⟩ }
    recorder := { Recorder.reset with queue := [⟨5, .halt 7⟩, ⟨6, .halt 0⟩] } }, _, ?_, nofun, ?_, rfl,
    rfl, rfl, rfl, rfl, by decide, rfl⟩
  · refine ⟨by decide, by decide, by decide,
      fun c => by simp [State.chan, Recorder.reset, Channel.reset], by decide, fun g => ?_, rfl⟩
    cases g
    · exact groupA_lawful
    all_goals exact reset_lawful
  · intro x hx
    have hc : (State.chan { up with recorder := Recorder.reset } x.channel).state = .idle := by
      simp [State.chan, Recorder.reset, Channel.reset]
    refine ⟨fun _ => hc, fun _ => ?_⟩
    simp only [List.mem_cons, List.not_mem_nil, or_false] at hx
    obtain rfl | rfl := hx
    · exact ⟨7, rfl⟩
    · exact ⟨0, rfl⟩

/-! ### Witnesses: the map and its orders -/

/-- Every order that tests its arguments, with each argument at the first value outside its range. -/
def outsideCases : List (Byte × List Byte) :=
  [(0x10, [2, 0, 0, 0, 0]), (0x10, [0, 0, 4, 0, 0]), (0x10, [0, 0, 255, 255, 0]),
   (0x10, [0, 0, 0, 0, 32]), (0x11, [2, 0, 0, 0]), (0x11, [0, 0, 3, 0]), (0x11, [0, 0, 0, 4]),
   (0x12, [2, 0, 0]), (0x12, [0, 0, 32]), (0x13, [2, 0, 0]), (0x13, [0, 0, 32]),
   (0x14, [2, 0, 0, 0]), (0x14, [0, 0, 32, 0]), (0x14, [0, 0, 0, 4]), (0x15, [2, 0]),
   (0x16, [2, 0, 0, 0, 1, 2, 0, 0, 0]), (0x16, [0, 0, 2, 0, 1, 2, 0, 0, 0]),
   (0x16, [0, 0, 0, 0, 1, 5, 0, 0, 0]), (0x16, [0, 0, 0, 0, 1, 0, 4, 0, 0]),
   (0x16, [0, 0, 0, 0, 1, 0, 255, 254, 0]), (0x16, [0, 0, 0, 0, 1, 1, 0, 3, 0]),
   (0x16, [0, 0, 0, 0, 1, 2, 0, 0, 2]), (0x18, [32, 0, 0, 0, 0, 0, 0, 0, 0, 0, 0]),
   (0x18, [0, 0, 4, 0, 0, 0, 0, 0, 0, 0, 0]), (0x19, [32]),
   (0x20, [4, 3, 192, 4, 101, 0, 7, 0, 0, 10, 140, 3]),
   (0x20, [0, 0, 99, 4, 101, 0, 7, 0, 0, 10, 140, 3]),
   (0x20, [0, 32, 0, 4, 101, 0, 7, 0, 0, 10, 140, 3]),
   (0x20, [0, 3, 192, 0, 19, 0, 7, 0, 0, 10, 140, 3]),
   (0x20, [0, 3, 192, 16, 0, 0, 7, 0, 0, 10, 140, 3]),
   (0x20, [0, 3, 192, 4, 101, 4, 101, 0, 0, 10, 140, 3]), (0x21, [4])]

/-- The same for the salvo orders and those behind them. -/
def outsideCases2 : List (Byte × List Byte) :=
  [(0x30, [16, 0, 0]), (0x30, [0, 4, 0]), (0x30, [0, 0, 32]), (0x31, [16, 0, 0, 0, 0]),
   (0x31, [0, 2, 0, 0, 0]), (0x31, [0, 0, 0, 4, 0]), (0x32, [16, 0, 0]), (0x32, [0, 2, 0]),
   (0x33, [16]), (0x34, [16]), (0x35, [16]), (0x36, [16]), (0x38, [8, 0, 0, 0, 0]),
   (0x38, [0, 5, 0, 0, 0]), (0x38, [0, 1, 16, 0, 0]), (0x38, [0, 2, 16, 0, 0]),
   (0x38, [0, 3, 16, 0, 0]), (0x39, [8]), (0x3C, [4, 0]), (0x40, [4, 0, 0, 0, 0, 0, 0, 0, 0, 0]),
   (0x41, [8, 0, 0, 0, 0]), (0x41, [0, 64, 0, 0, 0]), (0x41, [0, 0, 3, 0, 0]),
   (0x41, [0, 0, 1, 2, 0]), (0x41, [0, 0, 2, 4, 0]), (0x42, [8]), (0x43, [8]), (0x44, [8, 0, 0]),
   (0x44, [0, 4, 0]), (0x45, [8, 0]), (0x45, [0, 64]), (0x45, [0, 254]), (0x48, [16, 0, 0, 0]),
   (0x48, [0, 2, 0, 0]), (0x48, [0, 255, 254, 0]), (0x49, [16]), (0x4A, [16]), (0x4B, [16, 0]),
   (0x4C, [16]), (0x50, [1, 0]), (0x58, [5, 0]), (0x58, [2, 8]), (0x58, [2, 254])]

theorem witness_ArgumentsOutOfRangeAreRefused :
    ∀ x ∈ outsideCases, Serves up x.1 x.2 ∧ outsideRange (ord x.1 x.2)
      ∧ ∃ c, (x.1, c) ∈ orderRows 7 .takesWallsRecorders := by
  intro x hx
  simp only [outsideCases, List.mem_cons, List.not_mem_nil, or_false] at hx
  rcases hx with rfl | rfl | rfl | rfl | rfl | rfl | rfl | rfl | rfl | rfl | rfl | rfl | rfl | rfl
    | rfl | rfl | rfl | rfl | rfl | rfl | rfl | rfl | rfl | rfl | rfl | rfl | rfl | rfl | rfl | rfl
    | rfl | rfl <;>
  exact ⟨serves_of rfl rfl rfl (by decide),
    by simp [outsideRange, ord, Order.of, read8, read16, byteAt], by simp [orderRows]⟩

theorem witness_ArgumentsOutOfRangeAreRefused_rest :
    ∀ x ∈ outsideCases2, Serves up x.1 x.2 ∧ outsideRange (ord x.1 x.2)
      ∧ ∃ c, (x.1, c) ∈ orderRows 7 .takesWallsRecorders := by
  intro x hx
  simp only [outsideCases2, List.mem_cons, List.not_mem_nil, or_false] at hx
  rcases hx with rfl | rfl | rfl | rfl | rfl | rfl | rfl | rfl | rfl | rfl | rfl | rfl | rfl | rfl
    | rfl | rfl | rfl | rfl | rfl | rfl | rfl | rfl | rfl | rfl | rfl | rfl | rfl | rfl | rfl | rfl
    | rfl | rfl | rfl | rfl | rfl | rfl | rfl | rfl | rfl | rfl | rfl | rfl | rfl <;>
  exact ⟨serves_of rfl rfl rfl (by decide),
    by simp [outsideRange, ord, Order.of, read8, read16, byteAt], by simp [orderRows]⟩

/-- A state, a panel, a destination, a source, and the step of R16 that refuses. -/
def refusals : List (State × Byte × Byte × Byte × Verdict) :=
  [(up, 1, 3, 5, .panelOff),
   (up.setPanel 1 ⟨true, 0, 4, 5, 511, 0⟩, 1, 3, 5, .outsideWindow),
   (up, 0, 16, 5, .absent),
   (up.setEntry 3 { Entry.reset with group := .b }, 0, 3, 5, .noReference),
   (up.setEntry 3 { Entry.reset with lock := some 9 }, 0, 3, 5, .locked),
   (up.setPanel 1 ⟨true, 3, 0, 511, 511, 0⟩ |>.setEntry 3 { Entry.reset with protect := 2 }, 1, 3, 5,
    .isProtected)]

/-- The check of each of them, as TAKE makes it and as LOCK and PROTECT make it. -/
theorem refusals_refuse : ∀ c ∈ refusals,
    c.1.accessCheck (Fin.ofNat 32 c.2.1.toNat) (Fin.ofNat 512 c.2.2.1.toNat)
        (some (Fin.ofNat 1024 c.2.2.2.1.toNat)) = some c.2.2.2.2
      ∧ c.1.accessCheck (Fin.ofNat 32 c.2.1.toNat) (Fin.ofNat 512 c.2.2.1.toNat) none
          = some c.2.2.2.2 := by decide +kernel

/-- TAKE, LOCK and PROTECT at each refusing step; and TAKE alone, with the link not UP and with a
source that is not declared. -/
theorem witness_AccessCheckRefusesAtItsFirstFailingStep :
    (∀ c ∈ refusals, Serves c.1 0x10 [0, c.2.2.1, 0, c.2.2.2.1, c.2.1]
      ∧ Serves c.1 0x12 [0, c.2.2.1, c.2.1] ∧ Serves c.1 0x14 [0, c.2.2.1, c.2.1, 3])
      ∧ (Serves { up with link := Link.reset } 0x10 [0, 3, 0, 5, 0]
          ∧ { up with link := Link.reset }.accessCheck 0 3 (some 5) = some .matrixDown)
      ∧ Serves up 0x10 [0, 3, 0, 16, 0] ∧ up.accessCheck 0 3 (some 16) = some .absent := by
  refine ⟨fun c hc => ?_, ⟨serves_of rfl rfl rfl (by decide), by decide +kernel⟩,
    serves_of rfl rfl rfl (by decide), by decide +kernel⟩
  have h : ∀ c ∈ refusals, c.1.pins.reset = false ∧ c.1.control = Control.reset
      ∧ c.1.recorder.high = [] := by decide +kernel
  obtain ⟨h1, h2, h3⟩ := h c hc
  exact ⟨serves_of h1 h2 h3 rfl, serves_of h1 h2 h3 rfl, serves_of h1 h2 h3 rfl⟩

/-- Each reading order, with its arguments at the end of their ranges. -/
theorem witness_ReadingOrdersChangeNothing :
    (Serves up 0x15 [1, 255] ∧ read16 [1, 255] 0 = (511 : Dest))
      ∧ (Serves up 0x19 [31] ∧ read8 [31] 0 = (31 : PanelNo))
      ∧ (Serves up 0x21 [3] ∧ read8 [3] 0 = groupCode .d) ∧ Serves up 0x23 []
      ∧ (Serves up 0x36 [15] ∧ read8 [15] 0 = (15 : SlotNo))
      ∧ (Serves up 0x39 [7] ∧ read8 [7] 0 = (7 : InputNo))
      ∧ (Serves up 0x3C [3, 255] ∧ read16 [3, 255] 0 = (1023 : Source))
      ∧ (Serves up 0x45 [7, 255] ∧ read8 [7, 255] 0 = (7 : WallNo) ∧ read8 [7, 255] 1 = 0xFF)
      ∧ (Serves up 0x45 [7, 63] ∧ read8 [7, 63] 1 = (63 : TileNo))
      ∧ Serves up 0x4C [15] ∧ read8 [15] 0 = (15 : ChannelNo) := by
  refine ⟨⟨?_, by decide⟩, ⟨?_, by decide⟩, ⟨?_, by decide⟩, ?_, ⟨?_, by decide⟩, ⟨?_, by decide⟩,
    ⟨?_, by decide⟩, ⟨?_, by decide⟩, ⟨?_, by decide⟩, ?_, by decide⟩ <;>
  exact serves_of rfl rfl rfl (by decide)

/-- Each predicate, in both directions and both stop modes, from both ends of the map. -/
theorem witness_SeekWalksToTheFirstStop :
    (Serves up 0x16 [1, 255, 1, 0, 0, 0, 255, 255, 0]
        ∧ read16 [1, 255, 1, 0, 0, 0, 255, 255, 0] 0 = (511 : Dest)
        ∧ read8 [1, 255, 1, 0, 0, 0, 255, 255, 0] 5 = 0
        ∧ read16 [1, 255, 1, 0, 0, 0, 255, 255, 0] 6 = 0xFFFF)
      ∧ (Serves up 0x16 [0, 0, 0, 255, 255, 0, 3, 255, 1]
        ∧ read16 [0, 0, 0, 255, 255, 0, 3, 255, 1] 6 = (1023 : Source))
      ∧ (Serves up 0x16 [0, 0, 0, 2, 0, 1, 0, 2, 1]
        ∧ read16 [0, 0, 0, 2, 0, 1, 0, 2, 1] 6 = DestClass.preview.code)
      ∧ Serves up 0x16 [0, 0, 0, 2, 0, 2, 0, 0, 0] ∧ Serves up 0x16 [0, 0, 0, 2, 0, 3, 0, 0, 0]
      ∧ Serves up 0x16 [0, 0, 0, 2, 0, 4, 0, 0, 0] := by
  refine ⟨⟨?_, by decide⟩, ⟨?_, by decide⟩, ⟨?_, by decide⟩, ?_, ?_, ?_⟩ <;>
  exact serves_of rfl rfl rfl (by decide)

/-- A group change while a take is pending, while one is next, while the destination stands in a salvo
and while a channel bound to it cues; a class change; and a change of neither. -/
theorem witness_DestSetWritesClassAndGroup :
    (Serves (withTake up 12 (aTake .held none)) 0x11 [0, 12, 2, 3]
        ∧ ((withTake up 12 (aTake .held none)).entry 12).pending ≠ none
        ∧ Group.d ≠ ((withTake up 12 (aTake .held none)).entry 12).group)
      ∧ (Serves (up.setEntry 12 { Entry.reset with next := some ⟨5, 0, 0, none⟩ }) 0x11 [0, 12, 2, 3]
        ∧ ((up.setEntry 12 { Entry.reset with next := some ⟨5, 0, 0, none⟩ }).entry 12).next ≠ none)
      ∧ (Serves armed 0x11 [0, 12, 2, 3] ∧ (armed.slot 3).state ≠ .empty
        ∧ ∃ p ∈ (armed.slot 3).entries, p.1 = 12)
      ∧ (Serves (up.setChan 5 { Channel.reset with bound := some 12, state := .cueing }) 0x11
          [0, 12, 2, 3]
        ∧ ((up.setChan 5 { Channel.reset with bound := some 12, state := .cueing }).chan 5).state
          ≠ .idle)
      ∧ (Serves up 0x11 [1, 255, 2, 3] ∧ DestClass.preview ≠ (up.entry 511).cls)
      ∧ Serves up 0x11 [0, 0, 0, 0] ∧ DestClass.unclassed = (up.entry 0).cls := by
  refine ⟨⟨serves_of rfl rfl rfl (by decide), by decide +kernel⟩,
    ⟨serves_of rfl rfl rfl (by decide), by decide +kernel⟩,
    ⟨serves_of rfl rfl rfl (by decide), by decide +kernel⟩,
    ⟨serves_of rfl rfl rfl (by decide), by decide +kernel⟩,
    ⟨serves_of rfl rfl rfl (by decide), by decide +kernel⟩,
    serves_of rfl rfl rfl (by decide), by decide +kernel⟩

/-- Tile 5 of wall 1 shows destination 3, and nothing else does. -/
def tiled : State :=
  (up.setEntry 3 { Entry.reset with tiles := [(1, 5)] }).setWall 1
    { Wall.reset with tiles := (Vector.replicate 64 Tile.reset).set 5 ⟨.dest 3, false⟩ }

theorem tiled_entry (d : Dest) : (tiled.entry d).tiles = if d = 3 then [(1, 5)] else [] := by
  by_cases h : d = 3
  · subst h; decide +kernel
  · rw [if_neg h]
    show ((up.setEntry 3 _).entry d).tiles = []
    rw [State.setEntry_entry_of_ne _ _ _ h, up_entry]
    rfl

theorem tiled_tile (w : WallNo) (t : TileNo) :
    (tiled.tile w t).kind = if w = 1 ∧ t = 5 then .dest 3 else .invalid := by
  revert w t; decide +kernel

theorem tiled_fanout : FanoutLaw tiled where
  ordered d := by rw [tiled_entry]; split <;> simp
  length d := by rw [tiled_entry]; split <;> simp
  bound d w t := by
    rw [tiled_entry, tiled_tile]
    by_cases h : w = 1 ∧ t = 5
    · obtain ⟨rfl, rfl⟩ := h
      by_cases hd : d = 3
      · simp [hd]
      · simp [hd, Ne.symm hd]
    · by_cases hd : d = 3
      · simp only [hd, ↓reduceIte, List.mem_singleton, Prod.mk.injEq, h, reduceCtorEq]
      · simp [hd, h]

/-- The fan-out law reads the tile lists and the tiles. -/
theorem fanout_of_eq {s t : State} (h : FanoutLaw s) (h1 : ∀ d, (t.entry d).tiles = (s.entry d).tiles)
    (h2 : t.walls = s.walls) : FanoutLaw t where
  ordered d := by rw [h1]; exact h.ordered d
  length d := by rw [h1]; exact h.length d
  bound d w i := by
    have h3 : t.tile w i = s.tile w i := by simp [State.tile, State.wall, h2]
    rw [h1, h3]
    exact h.bound d w i

/-- LOCK by the owner and by another; UNLOCK of no lock, by the owner, by a panel of level 0 and by a
panel that may not; PROTECT to the level that stands, to another, and above the panel's own level. -/
theorem witness_LockUnlockAndProtectWriteTheEntry :
    let locked (p : PanelNo) := tiled.setEntry 3 { tiled.entry 3 with lock := some p }
    let low := tiled.setPanel 4 ⟨true, 2, 0, 511, 511, 0⟩
    FanoutLaw tiled ∧ (∀ p, FanoutLaw (locked p)) ∧ FanoutLaw low
      ∧ (Serves (locked 0) 0x12 [0, 3, 0] ∧ (locked 0).accessCheck 0 3 none = none
          ∧ ((locked 0).entry 3).lock = some 0)
      ∧ (Serves tiled 0x12 [0, 3, 0] ∧ tiled.accessCheck 0 3 none = none
          ∧ (tiled.entry 3).lock ≠ some 0)
      ∧ (Serves tiled 0x13 [0, 3, 0] ∧ (tiled.entry 3).lock = none)
      ∧ (Serves (locked 31) 0x13 [0, 3, 31] ∧ ((locked 31).entry 3).lock = some 31)
      ∧ (Serves (locked 31) 0x13 [0, 3, 0] ∧ ((locked 31).panel 0).level = 0
          ∧ ((locked 31).panel 0).enabled = true)
      ∧ (Serves (locked 31) 0x13 [0, 3, 30] ∧ ((locked 31).panel 30).enabled = false)
      ∧ (Serves tiled 0x14 [0, 3, 0, 3] ∧ tiled.accessCheck 0 3 none = none
          ∧ (tiled.entry 3).protect = 3)
      ∧ Serves low 0x14 [0, 3, 4, 0] ∧ low.accessCheck 4 3 none = none
          ∧ (0 : Level) < (low.panel 4).level := by
  refine ⟨tiled_fanout, fun p => fanout_of_eq tiled_fanout (fun d => ?_) rfl,
    fanout_of_eq tiled_fanout (fun _ => rfl) rfl, ⟨serves_of rfl rfl rfl (by decide), by decide +kernel⟩,
    ⟨serves_of rfl rfl rfl (by decide), by decide +kernel⟩,
    ⟨serves_of rfl rfl rfl (by decide), by decide +kernel⟩,
    ⟨serves_of rfl rfl rfl (by decide), by decide +kernel⟩,
    ⟨serves_of rfl rfl rfl (by decide), by decide +kernel⟩,
    ⟨serves_of rfl rfl rfl (by decide), by decide +kernel⟩,
    ⟨serves_of rfl rfl rfl (by decide), by decide +kernel⟩,
    serves_of rfl rfl rfl (by decide), by decide +kernel⟩
  rw [State.setEntry_entry]
  split
  · subst d; rfl
  · rfl

/-- Panel 32, level 4, and a record whose bounds lie at and above 511. -/
theorem witness_PanelSetReplacesTheRecord :
    (Serves up 0x18 [32, 1, 3, 0, 0, 1, 255, 0, 0, 0, 0]
        ∧ 32 ≤ read8 [32, 1, 3, 0, 0, 1, 255, 0, 0, 0, 0] 0)
      ∧ (Serves up 0x18 [31, 1, 4, 0, 0, 1, 255, 0, 0, 0, 0]
        ∧ 4 ≤ read8 [31, 1, 4, 0, 0, 1, 255, 0, 0, 0, 0] 2)
      ∧ (Serves up 0x18 [31, 2, 3, 0, 0, 1, 255, 2, 0, 255, 255]
        ∧ (511 : Dest).1 = min (read16 [31, 2, 3, 0, 0, 1, 255, 2, 0, 255, 255] 5) 511
        ∧ (511 : Dest).1 = min (read16 [31, 2, 3, 0, 0, 1, 255, 2, 0, 255, 255] 7) 511
        ∧ (511 : Dest).1 = min (read16 [31, 2, 3, 0, 0, 1, 255, 2, 0, 255, 255] 9) 511)
      ∧ (Serves up 0x19 [32] ∧ 32 ≤ read8 [32] 0)
      ∧ Serves up 0x19 [31] ∧ read8 [31] 0 = (31 : PanelNo) := by
  refine ⟨⟨?_, by decide⟩, ⟨?_, by decide⟩, ⟨?_, by decide⟩, ⟨?_, by decide⟩, ?_, by decide⟩ <;>
  exact serves_of rfl rfl rfl (by decide)

/-! ### Witnesses: reference groups and takes -/

/-- The smallest geometry, F = 2000 with the largest T asked for, on a DISABLED group; and the largest
values, with T and k_ref of 0, on group A, which is LOCKED. -/
theorem witness_RefSetEnablesOrStages :
    let least : List Byte := [3, 0, 100, 0, 20, 0, 19, 255, 255, 255, 255, 255]
    let most : List Byte := [0, 0x1F, 0xFF, 0x0F, 0xFF, 0x0F, 0xFE, 0, 0, 0, 0, 0]
    (Serves up 0x20 least ∧ read8 least 0 = groupCode .d ∧ 100 = read16 least 1 ∧ 20 = read16 least 3
        ∧ 19 = read16 least 5 ∧ 19 + 1 ≤ 20 ∧ 500 = max 1 (min (20 * 100 / 4) (read32 least 7))
        ∧ 7 = min 7 (read8 least 11) ∧ (up.grp .d).state = .disabled)
      ∧ Serves up 0x20 most ∧ read8 most 0 = groupCode .a ∧ 8191 = read16 most 1
        ∧ 4095 = read16 most 3 ∧ 4094 = read16 most 5 ∧ 4094 + 1 ≤ 4095
        ∧ 1 = max 1 (min (4095 * 8191 / 4) (read32 most 7)) ∧ 0 = min 7 (read8 most 11)
        ∧ (up.grp .a).state ≠ .disabled := by
  refine ⟨⟨serves_of rfl rfl rfl (by decide), ?_⟩, serves_of rfl rfl rfl (by decide), ?_⟩ <;>
  decide +kernel

/-- Group A, freewheeling from a boundary at 0. -/
def wheeling : State := { up.setGrp .a { groupA with state := .freewheel } with now := 0 }

/-- An edge of a DISABLED group; at the last early tick, 1,077,299; at the first and the last tick on
time, 1,077,300 and 1,082,700; one tick later; and at T and at T + 1 after a freewheel boundary. -/
theorem witness_ReferenceEdgeIsJudgedByItsGroup :
    up.pins.reset = false ∧ up.recorder.high = [] ∧ wheeling.pins.reset = false
      ∧ wheeling.recorder.high = [] ∧ (up.grp .b).state = .disabled
      ∧ (up.grp .a).active = some geo ∧ (up.grp .a).last = some 0 ∧ (up.grp .a).state = .locked
      ∧ (up.clock 1077299).now + geo.tol < 0 + (up.grp .a).period
      ∧ (0 + (up.grp .a).period ≤ (up.clock 1077300).now + geo.tol
          ∧ (up.clock 1077300).now ≤ 0 + (up.grp .a).period + geo.tol)
      ∧ (0 + (up.grp .a).period ≤ (up.clock 1082700).now + geo.tol
          ∧ (up.clock 1082700).now ≤ 0 + (up.grp .a).period + geo.tol)
      ∧ 0 + (up.grp .a).period + geo.tol < (up.clock 1082701).now
      ∧ (wheeling.grp .a).active = some geo ∧ (wheeling.grp .a).last = some 0
      ∧ (wheeling.grp .a).state = .freewheel ∧ (wheeling.clock 2700).now - 0 ≤ geo.tol
      ∧ geo.tol < (wheeling.clock 2701).now - 0 := by decide +kernel

theorem witness_ExpiryAndFreewheelTakeTheirBoundaries :
    (up.pins.reset = false ∧ up.recorder.high = [] ∧ (up.grp .a).active = some geo
        ∧ (up.grp .a).last = some 0 ∧ (up.grp .a).state = .locked)
      ∧ wheeling.pins.reset = false ∧ wheeling.recorder.high = []
        ∧ (wheeling.grp .a).active = some geo ∧ (wheeling.grp .a).last = some 0
        ∧ (wheeling.grp .a).state = .freewheel := by decide +kernel

/-- A wall of another group, one frozen, one whose line is busy, and one that drains. -/
theorem witness_BoundaryDrainsTheWallsOfItsGroup :
    let s := ((up.setWall 1 { Wall.reset with group := .d }).setWall 2
      { Wall.reset with frozen := true }).setWall 3 { Wall.reset with
        line := [⟨false, 3, 5, ⟨none, nameReset, .off, false, false, false, 3⟩, 0⟩] }
    (s.wall 1).group ≠ .a ∧ (s.wall 2).frozen = true ∧ (s.wall 3).line ≠ []
      ∧ (s.wall 7).group = .a ∧ (s.wall 7).frozen = false ∧ (s.wall 7).line = [] := by
  decide +kernel

theorem witness_LeadSetLoadsTheFourQuantities : Serves up 0x22 [255, 255, 255, 255, 255, 0] :=
  serves_of rfl rfl rfl (by decide)

/-- The geometry of the worked figures, and the shortest frame with the largest lead and guard. -/
theorem witness_PlacementLandsAtTheFirstReachableSwitchPoint :
    let short : Geometry := ⟨100, 20, 19, 500, 7⟩
    let s := { up.setGrp .d { groupA with active := some short } with sched := ⟨65535, 7, 16383, 15⟩ }
    ((up.grp .a).active = some geo ∧ 2000 ≤ geo.l * geo.h ∧ geo.s < geo.l ∧ up.sched.lead ≤ 65535
        ∧ up.sched.guard ≤ 16383)
      ∧ (s.grp .d).active = some short ∧ 2000 ≤ short.l * short.h ∧ short.s < short.l
        ∧ s.sched.lead ≤ 65535 ∧ s.sched.guard ≤ 16383 := by decide +kernel

/-- A moment past the end of the frame, where the placement with Λ + G = 6,721 is due at once. -/
def dueNow : State := { tiled with now := 1081000, sched := ⟨4021, 3, 2700, 3⟩ }

/-- `dueNow` with the whole pool stale. -/
def noToken : State := { dueNow with link := { up.link with pool := Vector.replicate 255 (.stale 0) } }

/-- A take that is placed on an entry that is empty, or holds one in HELD or WAITING, or is queued behind
one in SENT or OVERDUE; placed ahead, due at once with a token, and due at once with none. -/
theorem witness_TakeIsPlacedOrQueued :
    let on (p : Pending) := tiled.setEntry 3 { tiled.entry 3 with pending := some p }
    let order : List Byte := [0, 3, 0, 5, 0]
    let placed (s : State) :=
      let u := (s.clock 0).beginServing (ord 0x10 order)
      (u.placement .a).countdown = 0 ∧ (u.placement .a).offset ≤ u.since .a
    read16 order 0 = (3 : Dest) ∧ read16 order 2 = (5 : Source) ∧ read8 order 4 = (0 : PanelNo)
      ∧ (∀ p, FanoutLaw (on p) ∧ Serves (on p) 0x10 order ∧ ((on p).entry 3).pending = some p)
      ∧ (∀ ph ∈ [Phase.held, .waiting, .sent, .overdue],
          (on (aTake ph none)).accessCheck 0 3 (some 5) = none ∧ (aTake ph none).phase = ph)
      ∧ (FanoutLaw tiled ∧ Serves tiled 0x10 order ∧ tiled.accessCheck 0 3 (some 5) = none
          ∧ (tiled.entry 3).pending = none ∧ ¬ placed tiled)
      ∧ (FanoutLaw dueNow ∧ Serves dueNow 0x10 order ∧ dueNow.accessCheck 0 3 (some 5) = none
          ∧ placed dueNow ∧ dueNow.token 0 = .free)
      ∧ FanoutLaw noToken ∧ Serves noToken 0x10 order ∧ noToken.accessCheck 0 3 (some 5) = none
          ∧ placed noToken ∧ ∀ k, noToken.token k ≠ .free := by
  refine ⟨by decide, by decide, by decide,
    fun p => ⟨fanout_of_eq tiled_fanout (fun d => ?_) rfl, serves_of rfl rfl rfl (by decide),
      by simp⟩, by decide +kernel,
    ⟨tiled_fanout, serves_of rfl rfl rfl (by decide), by decide +kernel⟩,
    ⟨fanout_of_eq tiled_fanout (fun _ => rfl) rfl, serves_of rfl rfl rfl (by decide),
      by decide +kernel⟩,
    fanout_of_eq tiled_fanout (fun _ => rfl) rfl, serves_of rfl rfl rfl (by decide), by decide +kernel,
    by decide +kernel, fun k => by simp [noToken, State.token]⟩
  rw [State.setEntry_entry]
  split
  · subst d; rfl
  · rfl

/-- A ticket; and a salvo tag with one take outstanding and with two. -/
theorem witness_EndedTakeIsReported :
    let s (n : Nat) := up.setSlot 3 ⟨.firing, .a, 0, [(12, 5)], n, none⟩
    (40 : Word16) ≠ 0 ∧ (s 1).slot 3 = ⟨.firing, .a, 0, [(12, 5)], 1, none⟩
      ∧ ((s 1).slot 3).outstanding ≤ 1 ∧ ¬ ((s 2).slot 3).outstanding ≤ 1 := by decide +kernel

/-- A take that is due at 1,078,620. -/
theorem witness_TakesThatFallDueShareTheTokens :
    let s := withTake up 12 (aTake .held none)
    s.pins.reset = false ∧ s.recorder.high = []
      ∧ (aTake .held none).offset ≤ (s.clock 1078620).since (s.entry 12).group := by decide +kernel

/-- Each phase, at the values where its cases part. -/
theorem witness_BoundaryTreatsEachTakeOnce :
    let b : Boundary := ⟨.a, 1001, 1080000, geo, false, 6720⟩
    (∀ p, ((withTake up 12 p).entry 12).group = b.group ∧ ((withTake up 12 p).entry 12).pending = some p)
      ∧ ((up.entry 12).pending = none ∧ (up.setEntry 12 { Entry.reset with group := .d } |>.entry 12).group
          ≠ b.group)
      ∧ (∃ p : Pending, p.phase = .waiting) ∧ (∃ p : Pending, p.phase = .sent ∧ p.landing = 0)
      ∧ (∃ p : Pending, p.phase = .sent ∧ p.landing ≠ 0)
      ∧ (∃ p : Pending, p.phase = .overdue ∧ 1 < p.overdue.getD 0)
      ∧ (∃ p : Pending, p.phase = .overdue ∧ p.overdue.getD 0 ≤ 1)
      ∧ (∃ p : Pending, p.phase = .held ∧ p.countdown = 0)
      ∧ (∃ p : Pending, p.phase = .held ∧ p.countdown = 1 ∧ p.offset ≤ (wheeling.clock 2700).since b.group)
      ∧ ∃ p : Pending, p.phase = .held ∧ p.countdown = 2 :=
  ⟨fun p => ⟨by simp [withTake, up_entry, Entry.reset], by simp [withTake]⟩, by decide +kernel,
    ⟨aTake .waiting none, rfl⟩, ⟨{ aTake .sent (some 3) with landing := 0 }, rfl, rfl⟩,
    ⟨aTake .sent (some 3), rfl, by decide⟩, ⟨{ aTake .overdue (some 3) with overdue := some 2 }, by decide⟩,
    ⟨{ aTake .overdue (some 3) with overdue := some 1 }, by decide⟩, ⟨aTake .held none, by decide⟩,
    ⟨{ aTake .held none with countdown := 1, offset := 2700 }, by decide +kernel⟩,
    ⟨{ aTake .held none with countdown := 2 }, by decide⟩⟩

/-- A SENT take whose landing frame has ended; an OVERDUE one in its last frame with no take behind it,
with one and the link UP, and with one and the link not UP. -/
theorem witness_OverdueTakesTimeOut :
    let sent : Pending := { aTake .sent (some 3) with landing := 0 }
    let last : Pending := { aTake .overdue (some 3) with overdue := some 1 }
    let next (s : State) := s.setEntry 12 { Entry.reset with
      pending := some last, next := some ⟨5, 0, 0, none⟩ }
    let down := { up with link := { up.link with state := .surveying } }
    (∀ p, (withTake up 12 p).pins.reset = false ∧ (withTake up 12 p).recorder.high = []
        ∧ ((withTake up 12 p).entry 12).pending = some p)
      ∧ (sent.phase = .sent ∧ sent.landing = 0) ∧ (last.phase = .overdue ∧ last.overdue = some 1)
      ∧ ((withTake up 12 last).entry 12).next = none
      ∧ ((next up).entry 12).next = some ⟨5, 0, 0, none⟩ ∧ (next up).link.state = .up
      ∧ ((next down).entry 12).next = some ⟨5, 0, 0, none⟩ ∧ (next down).link.state ≠ .up := by
  refine ⟨fun p => ⟨rfl, rfl, by simp [withTake]⟩, ?_⟩
  decide +kernel

/-! ### Witnesses: the matrix link, salvos and trigger inputs -/

/-- The link in a state, with the carrier present or not. -/
def linked (state : LinkState) (carrier : Bool) : State :=
  { up with pins := ⟨false, carrier⟩, link := { up.link with state := state } }

/-- A gain in DOWN, a loss in SURVEYING and a loss in UP, with a take pending and one next. -/
theorem witness_CarrierMovesTheLink :
    (∀ st c, (linked st c).pins.reset = false ∧ (linked st c).recorder.high = []
        ∧ (linked st c).pins.carrier = c ∧ (linked st c).link.state = st)
      ∧ ∃ s : State, s.pins.reset = false ∧ s.recorder.high = [] ∧ s.pins.carrier = true
          ∧ s.link.state = .up ∧ (∃ p, (s.entry 12).pending = some p ∧ p.ticket ≠ 0)
          ∧ ∃ n, (s.entry 12).next = some n ∧ n.ticket ≠ 0 :=
  ⟨fun _ _ => ⟨rfl, rfl, rfl, rfl⟩,
    up.setEntry 12 { Entry.reset with
      pending := some (aTake .sent (some 3)), next := some ⟨5, 0, 41, none⟩ },
    rfl, rfl, rfl, rfl, ⟨aTake .sent (some 3), by simp, by decide⟩, ⟨5, 0, 41, none⟩, by simp, by decide⟩

/-- From each state of the link, with and without the carrier. -/
theorem witness_LinkBlockResetRestartsTheLink :
    (∀ st c, Serves (linked st c) 0x58 [0, 0xFF] ∧ (linked st c).link.state = st
        ∧ (linked st c).pins.carrier = c) ∧ read8 [0, 0xFF] 0 = 0 :=
  ⟨fun _ _ => ⟨serves_of rfl rfl rfl (by decide), rfl, rfl⟩, by decide⟩

/-- The take of destination 12 that holds token 17 (place 16). -/
def flying : Pending := { aTake .sent (some 16) with instant := some 0 }

/-- The same take in the last frame of its overdue countdown. -/
def ending : Pending := { flying with phase := .overdue, overdue := some 1 }

/-- Destination 12 with a take that holds token 17, every other token stale, and destination 13 waiting
for one or not. -/
def holder (take : Pending) (next : Option NextTake) (wait : Bool) : State :=
  let s := (up.setEntry 12 { Entry.reset with pending := some take, next := next }).setEntry 13
    { Entry.reset with pending := if wait then some (aTake .waiting none) else none }
  { s with link := { s.link with
    pool := (Vector.replicate 255 (.stale 0)).set 16 .inUse, waiting := if wait then [13] else [] } }

theorem holder_next (take : Pending) (next : Option NextTake) (wait : Bool) (d : Dest) :
    ((holder take next wait).entry d).next = if d = 12 then next else none := by
  show ((State.setEntry _ 13 _).entry d).next = _
  by_cases h : d = 13
  · subst h; rfl
  · rw [State.setEntry_entry_of_ne _ _ _ h, State.setEntry_entry]
    split
    · rfl
    · rw [up_entry]; rfl

theorem holder_fanout (take : Pending) (next : Option NextTake) (wait : Bool) :
    FanoutLaw (holder take next wait) := by
  have he : ∀ d, ((holder take next wait).entry d).tiles = [] := by
    intro d
    show ((State.setEntry _ 13 _).entry d).tiles = _
    by_cases h : d = 13
    · subst h; rfl
    · rw [State.setEntry_entry_of_ne _ _ _ h, State.setEntry_entry]
      split
      · rfl
      · rw [up_entry]; rfl
  have hk : ∀ w i, (State.tile (holder take next wait) w i).kind = .invalid := by
    intro w i
    show (State.tile State.reset w i).kind = _
    simp [State.tile, State.wall, State.reset, Wall.reset, Tile.reset]
  exact ⟨fun d => by rw [he]; exact .nil, fun d => by simp [he], fun d w i => by simp [he, hk]⟩

/-- The holder's take is SENT. -/
abbrev sentTake (next : Option NextTake) (wait : Bool) : State := holder flying next wait

theorem holder_pending (take : Pending) (next : Option NextTake) (wait : Bool) (d : Dest) :
    ((holder take next wait).entry d).pending
      = if d = 13 then (if wait then some (aTake .waiting none) else none)
        else if d = 12 then some take else none := by
  show ((State.setEntry _ 13 _).entry d).pending = _
  rw [State.setEntry_entry]
  split
  · rfl
  · rw [State.setEntry_entry]
    split
    · rfl
    · rw [up_entry]; rfl

theorem holder_token (take : Pending) (next : Option NextTake) (wait : Bool) (k : Token) :
    (holder take next wait).token k = if k = 16 then .inUse else .stale 0 := by
  show ((Vector.replicate 255 (TokenState.stale 0)).set 16 TokenState.inUse)[k] = _
  by_cases h : k = 16
  · subst h; rfl
  · have h1 : ¬ (16 = k.1) := fun e => h (Fin.ext e.symm)
    rw [if_neg h, Fin.getElem_fin, Vector.getElem_set, if_neg h1, Vector.getElem_replicate]

theorem holder_law (take : Pending) (next : Option NextTake) (wait : Bool) (hf : take.inFlight)
    (ht : take.token = some 16) : TokenLaw (holder take next wait) := by
  have hp : ∀ d p, ((holder take next wait).entry d).pending = some p →
      d = 12 ∧ p = take ∨ d = 13 ∧ wait = true ∧ p = aTake .waiting none := by
    intro d p h
    rw [holder_pending] at h
    split at h
    · split at h
      · exact .inr ⟨‹_›, ‹_›, (Option.some.inj h).symm⟩
      · cases h
    · split at h
      · exact .inl ⟨‹_›, (Option.some.inj h).symm⟩
      · cases h
  have hw : (holder take next wait).link.waiting = if wait then [13] else [] := rfl
  refine ⟨fun d p h => ?_, fun d p k h hk => ?_, fun d e p q k h1 h2 hk1 hk2 => ?_, fun k h => ?_,
    fun d => ?_, ?_, fun _ k h => ?_, fun d h => ?_⟩
  · obtain ⟨-, rfl⟩ | ⟨-, -, rfl⟩ := hp d p h
    · exact ⟨fun _ => hf, fun _ => by rw [ht]; rfl⟩
    · exact ⟨nofun, fun h => by cases h with | inl h => cases h | inr h => cases h⟩
  · obtain ⟨-, rfl⟩ | ⟨-, -, rfl⟩ := hp d p h
    · obtain rfl : 16 = k := Option.some.inj (ht.symm.trans hk)
      rw [holder_token]; rfl
    · cases hk
  · obtain ⟨rfl, rfl⟩ | ⟨-, -, rfl⟩ := hp d p h1
    · obtain ⟨rfl, -⟩ | ⟨-, -, rfl⟩ := hp e q h2
      · rfl
      · cases hk2
    · cases hk1
  · rw [holder_token] at h
    split at h
    · exact ⟨12, take, by rw [holder_pending]; rfl, by subst k; exact ht⟩
    · cases h
  · rw [hw]
    constructor
    · intro h
      cases wait with
      | false => cases h
      | true =>
        rw [if_pos rfl, List.mem_singleton] at h
        subst h
        exact ⟨aTake .waiting none, by rw [holder_pending]; rfl, rfl⟩
    · rintro ⟨p, h, hphase⟩
      obtain ⟨-, rfl⟩ | ⟨rfl, rfl, -⟩ := hp d p h
      · obtain h2 | h2 := hf <;> cases hphase.symm.trans h2
      · exact List.mem_singleton.2 rfl
  · rw [hw]; cases wait <;> simp
  · rw [holder_token] at h
    split at h <;> cases h
  · rw [holder_next] at h
    split at h
    · exact ⟨take, by subst d; rw [holder_pending]; rfl, hf⟩
    · cases h rfl

/-- A take that times out at a boundary, with none behind it and one, the link UP and not. -/
theorem witness_BoundaryTreatsEachTakeOnce_ends :
    (∀ next wait, TokenLaw (holder ending next wait) ∧ FanoutLaw (holder ending next wait)
        ∧ ((holder ending next wait).entry 12).pending = some ending
        ∧ ((holder ending next wait).entry 12).next = next
        ∧ ((holder ending next wait).entry 12).group = .a ∧ (holder ending next wait).link.state = .up)
      ∧ ending.phase = .overdue ∧ ending.overdue.getD 0 ≤ 1 ∧ ending.token = some 16
      ∧ (linked .surveying true).link.state ≠ .up := by
  refine ⟨fun next wait => ⟨holder_law _ next wait (.inr rfl) rfl, holder_fanout _ _ _,
    by rw [holder_pending]; rfl, by rw [holder_next]; rfl, ?_, rfl⟩, rfl, by decide, rfl, by decide⟩
  show ((State.setEntry _ 13 _).entry 12).group = .a
  rw [State.setEntry_entry_of_ne _ _ _ (by decide), State.setEntry_entry_self]
  rfl

/-- The tile lists are lawful where a carrier is lost, or LINK is reset, in UP. -/
theorem witness_CarrierMovesTheLink_tiles :
    FanoutLaw (sentTake none false) ∧ ((sentTake none false).entry 12).pending ≠ none
      ∧ (sentTake none false).link.state = .up ∧ (sentTake none false).pins.carrier = true :=
  ⟨holder_fanout _ _ _, by rw [holder_pending]; nofun, rfl, rfl⟩

/-- With no take behind it and with one; with no take waiting and with one. -/
theorem witness_MatchedReportEndsTheTake :
    (∀ next wait,
      let s := sentTake next wait
      TokenLaw s ∧ s.pins.reset = false ∧ s.recorder.high = [] ∧ s.link.receiver = .hunting
        ∧ s.link.state = .up ∧ (12 : Dest).1 < s.map.dests ∧ s.token 16 = .inUse
        ∧ (s.entry 12).pending = some flying ∧ (s.entry 12).next = next)
      ∧ flying.token = some 16 ∧ flying.inFlight
      ∧ (sentTake none false).link.waiting = [] ∧ (sentTake none true).link.waiting = 13 :: []
      ∧ ((sentTake none true).entry 13).pending = some (aTake .waiting none) := by
  exact ⟨fun next wait => ⟨holder_law _ next wait (.inl rfl) rfl, rfl, rfl, rfl, rfl,
    by show 12 < 16; decide, by rw [holder_token]; rfl, by rw [holder_pending]; rfl,
    by rw [holder_next]; rfl⟩, rfl, .inl rfl, rfl, rfl, by rw [holder_pending]; rfl⟩

/-- Destinations 512 and 16 and source 1024; an unknown token; a token in use elsewhere; a stale token
recorded for the destination, with no take waiting and with one. -/
theorem witness_UnmatchedReportIsAppliedAsForeign :
    let stale (wait : Bool) := { sentTake none wait with link :=
      { (sentTake none wait).link with pool := Vector.replicate 255 (.stale 3) } }
    (∀ w, (stale w).pins.reset = false ∧ (stale w).recorder.high = []
        ∧ (stale w).link.receiver = .hunting ∧ (stale w).link.state = .up
        ∧ (stale w).link.waiting = (if w then [13] else []) ∧ (stale w).token 16 = .stale 3
        ∧ ((stale w).entry 3).pending = none)
      ∧ 512 ≤ (512 : Word16).toNat ∧ up.map.dests ≤ (16 : Word16).toNat
      ∧ 1024 ≤ (1024 : Word16).toNat
      ∧ ((15 : Word16).toNat = (15 : Dest) ∧ (15 : Dest).1 < up.map.dests ∧ (up.entry 15).pending = none)
      ∧ ((up.pins.reset = false ∧ up.recorder.high = [] ∧ up.link.receiver = .hunting)
          ∧ (17 : Byte).toNat = (16 : Token).1 + 1 ∧ up.token 16 ≠ .inUse)
      ∧ (stale true).link.waiting = 13 :: [] ∧ (3 : Dest).1 < up.map.dests
      ∧ ((stale true).entry 13).pending = some (aTake .waiting none) := by
  refine ⟨fun w => ⟨rfl, rfl, rfl, rfl, rfl, by simp [State.token], ?_⟩, ?_⟩
  · exact holder_pending flying none w 3
  · decide +kernel

/-- Each state of the link; destination 512 and source 1024, and destination 511 and source 1023. -/
theorem witness_SurveyTeachesTheMap :
    (∀ st c, (linked st c).pins.reset = false ∧ (linked st c).recorder.high = []
        ∧ (linked st c).link.receiver = .hunting ∧ (linked st c).link.state = st)
      ∧ 512 ≤ (512 : Word16).toNat ∧ 1024 ≤ (1024 : Word16).toNat
      ∧ (511 : Word16).toNat = (511 : Dest) ∧ (1023 : Word16).toNat = (1023 : Source)
      ∧ ((linked .surveying true).entry 511).source ≠ some 1023 := by
  refine ⟨fun _ _ => ⟨rfl, rfl, rfl, rfl⟩, ?_⟩
  decide +kernel

/-- DOWN and UP; lengths 5 and 1025; a wrong check; the body of a SURVEY_REQ, which the part itself
sends; the frame of a report and that of a SURVEY_END. -/
theorem witness_MatrixFrameIsJudged :
    (∀ st c, (linked st c).pins.reset = false ∧ (linked st c).recorder.high = []
        ∧ (linked st c).link.receiver = .hunting ∧ (linked st c).link.state = st)
      ∧ (∃ n, n < 65536 ∧ ¬ (6 ≤ n ∧ n ≤ 1024) ∧ [0xB4, 0x00, 0x05] = 0xB4#8 :: be16 n)
      ∧ (∃ n, n < 65536 ∧ ¬ (6 ≤ n ∧ n ≤ 1024) ∧ [0xB4, 0x04, 0x01] = 0xB4#8 :: be16 n)
      ∧ (∃ body c, 6 ≤ body.length ∧ body.length ≤ 1024 ∧ c < 65536
        ∧ c ≠ (crc (be16 body.length ++ body)).toNat
        ∧ 0xB4#8 :: [0, 6, 0, 0, 0, 0, 0, 0, 0, 0] = 0xB4 :: be16 body.length ++ body ++ be16 c)
      ∧ (∃ body, 6 ≤ body.length ∧ body.length ≤ 1024
          ∧ frameOf MatrixMsg.surveyReq.body = frameOf body
          ∧ ¬ (body.head? = some 0x81 ∧ body.length = 9) ∧ ¬ (body.head? = some 0x82 ∧ body.length = 6))
      ∧ (∃ bytes, ∃ dest source held : Word16, ∃ token survey : Byte,
          bytes = frameOf ([0x81, token] ++ be16 dest.toNat ++ be16 source.toNat
            ++ be16 held.toNat ++ [survey]))
      ∧ ∃ bytes, ∃ dests sources : Word16, ∃ token : Byte,
          bytes = frameOf ([0x82, token] ++ be16 dests.toNat ++ be16 sources.toNat) :=
  ⟨fun _ _ => ⟨rfl, rfl, rfl, rfl⟩, ⟨5, by decide⟩, ⟨1025, by decide⟩,
    ⟨List.replicate 6 0, 0, by decide +kernel⟩, ⟨MatrixMsg.surveyReq.body, by decide +kernel⟩,
    ⟨_, 12, 8, 6100, 17, 0, rfl⟩, _, 512, 1024, 0, rfl⟩

/-- Something on each of the three lines. -/
theorem witness_LinesSendOneThingAtATime :
    let s := { up with
      link := { up.link with line := some .surveyReq }
      recorder := { up.recorder with line := some ⟨5, .halt 0⟩ } }
    let t := s.setWall 7 { Wall.reset with
      line := [⟨false, 7, 5, ⟨none, nameReset, .off, false, false, false, 3⟩, 0⟩] }
    s.pins.reset = false ∧ s.link.line ≠ none ∧ s.recorder.line ≠ none ∧ t.pins.reset = false
      ∧ (t.wall 7).line ≠ [] := by decide +kernel

/-- Slot 15 in any state, with any list. -/
def slot15 (st : SlotState) (l : List (Dest × Source)) : State :=
  up.setSlot 15 ⟨st, .a, 0, l, 0, none⟩

/-- Each order on each state of the slot; an entry that is there and one that is not; 48 entries. -/
theorem witness_SalvoOrdersBuildTheSlot :
    (∀ st l, Serves (slot15 st l) 0x30 [15, 3, 31] ∧ Serves (slot15 st l) 0x31 [15, 1, 255, 3, 255]
        ∧ Serves (slot15 st l) 0x32 [15, 1, 255] ∧ Serves (slot15 st l) 0x33 [15]
        ∧ Serves (slot15 st l) 0x34 [15] ∧ (slot15 st l).slot 15 = ⟨st, .a, 0, l, 0, none⟩)
      ∧ read8 [15, 3, 31] 1 = groupCode .d ∧ read8 [15, 3, 31] 2 = (31 : PanelNo)
      ∧ read16 [15, 1, 255, 3, 255] 1 = (511 : Dest) ∧ read16 [15, 1, 255, 3, 255] 3 = (1023 : Source)
      ∧ (511 : Dest) ∈ [((511 : Dest), (0 : Source))].map (·.1)
      ∧ (511 : Dest) ∉ [((510 : Dest), (0 : Source))].map (·.1)
      ∧ 48 ≤ (((List.finRange 512).take 48).map fun d => (d, (0 : Source))).length := by
  refine ⟨fun st l => ⟨?_, ?_, ?_, ?_, ?_, by simp [slot15]⟩, ?_⟩
  · exact serves_of rfl rfl rfl (by decide)
  · exact serves_of rfl rfl rfl (by decide)
  · exact serves_of rfl rfl rfl (by decide)
  · exact serves_of rfl rfl rfl (by decide)
  · exact serves_of rfl rfl rfl (by decide)
  · decide +kernel

theorem up_plain : (∀ d, (up.entry d).group = .a)
    ∧ (∀ d p, (up.entry d).pending = some p → p.tag = none) ∧ ∀ d, (up.entry d).next = none :=
  ⟨fun d => by rw [up_entry]; rfl, fun d p => by rw [up_entry]; nofun, fun d => by rw [up_entry]; rfl⟩

/-- The store with one slot filled and no take tagged. -/
theorem slot_law {s : State} (k : SlotNo) (r : Slot) (hg : ∀ d, (s.entry d).group = .a)
    (hp : ∀ d p, (s.entry d).pending = some p → p.tag = none) (hn : ∀ d, (s.entry d).next = none)
    (hs : ∀ j, s.slot j = if j = k then r else Slot.reset) (h1 : (r.entries.map (·.1)).Nodup)
    (h2 : r.entries.length ≤ 48) (h3 : r.group = .a) (h4 : r.state = .empty → r.entries = [])
    (h5 : r.outstanding = 0) (h6 : r.state ≠ .firing) : SalvoLaw s where
  once j := by rw [hs]; split <;> simp [h1, Slot.reset]
  length j := by rw [hs]; split <;> simp [h2, Slot.reset]
  group j e _ := by rw [hs, hg]; split <;> simp [h3, Slot.reset]
  empty j := by rw [hs]; split; exacts [h4, fun _ => rfl]
  count j := by
    have ht : s.tagged j = 0 := by
      have h : ∀ d, (s.entry d).pending.any (·.tag = some j) = false := fun d => by
        cases e : (s.entry d).pending with
        | none => rfl
        | some p => simp [hp d p e]
      simp [State.tagged, hn, h]
    rw [hs, ht]; split <;> simp [h5, Slot.reset]
  firing j := by rw [hs]; split <;> simp [h5, h6, Slot.reset]
  pending d p h h1 := absurd (hp d p h) h1
  next d p h := by simp [hn] at h

theorem reset_slots (s : State) (k : SlotNo) (r : Slot) (h : ∀ j, s.slot j = Slot.reset) (j : SlotNo) :
    (s.setSlot k r).slot j = if j = k then r else Slot.reset := by
  by_cases e : j = k
  · subst e; simp
  · rw [State.setSlot_slot_of_ne _ _ _ e, if_neg e, h]

theorem up_slot (k : SlotNo) : up.slot k = Slot.reset := by simp [up, State.slot, State.reset]

/-- The entries at reset, but for an untagged take that destination 12 may hold. -/
theorem untagged (take : Option Pending) (h : ∀ p, take = some p → p.tag = none) :
    let s := up.setEntry 12 { Entry.reset with pending := take }
    (∀ d, (s.entry d).group = .a) ∧ (∀ d p, (s.entry d).pending = some p → p.tag = none)
      ∧ ∀ d, (s.entry d).next = none := by
  refine ⟨fun d => ?_, fun d p => ?_, fun d => ?_⟩ <;> rw [State.setEntry_entry] <;> split <;>
    first | rfl | (rw [up_entry]; first | rfl | nofun) | exact h p

/-- A slot that is not ARMED; the link not UP; the group DISABLED; and a fire of one accepted entry and
one refused, onto an entry that is empty and onto a take in flight. -/
theorem witness_SalvoFireTakesItsEntries :
    let fill (s : State) (st : SlotState) := s.setSlot 15 ⟨st, .a, 0, [(12, 5), (16, 5)], 0, none⟩
    let off := up.setGrp .a GroupRec.reset
    let busy := up.setEntry 12 { Entry.reset with pending := some flying }
    read8 [15] 0 = (15 : SlotNo)
      ∧ (SalvoLaw (fill up .opened) ∧ Serves (fill up .opened) 0x35 [15]
          ∧ ((fill up .opened).slot 15).state ≠ .armed)
      ∧ (SalvoLaw (fill (linked .down true) .armed) ∧ Serves (fill (linked .down true) .armed) 0x35 [15]
          ∧ ((fill (linked .down true) .armed).slot 15).state = .armed
          ∧ (linked .down true).link.state ≠ .up)
      ∧ (SalvoLaw (fill off .armed) ∧ Serves (fill off .armed) 0x35 [15]
          ∧ (off.grp .a).state = .disabled ∧ off.link.state = .up)
      ∧ SalvoLaw (fill up .armed) ∧ Serves (fill up .armed) 0x35 [15]
          ∧ ((fill up .armed).slot 15).state = .armed ∧ up.link.state = .up
          ∧ (up.grp .a).state ≠ .disabled
          ∧ (fill up .armed).accessCheck 0 12 (some 5) = none
          ∧ (fill up .armed).accessCheck 0 16 (some 5) = some .absent
          ∧ ((fill up .armed).entry 12).pending = none
          ∧ SalvoLaw (fill busy .armed) ∧ (fill busy .armed).accessCheck 0 12 (some 5) = none
          ∧ ((fill busy .armed).entry 12).pending = some flying ∧ flying.phase = .sent := by
  refine ⟨by decide, ⟨?_, serves_of rfl rfl rfl (by decide), by decide +kernel⟩,
    ⟨?_, serves_of rfl rfl rfl (by decide), by decide +kernel⟩,
    ⟨?_, serves_of rfl rfl rfl (by decide), by decide +kernel⟩, ?_,
    serves_of rfl rfl rfl (by decide), by decide +kernel, by decide +kernel, by decide +kernel,
    by decide +kernel, by decide +kernel, by decide +kernel, ?_, by decide +kernel, by decide +kernel, rfl⟩
  · exact slot_law 15 _ up_plain.1 up_plain.2.1 up_plain.2.2 (reset_slots _ _ _ up_slot) (by decide)
      (by decide) rfl nofun rfl nofun
  · exact slot_law 15 _ up_plain.1 up_plain.2.1 up_plain.2.2 (reset_slots _ _ _ up_slot) (by decide)
      (by decide) rfl nofun rfl nofun
  · exact slot_law 15 _ up_plain.1 up_plain.2.1 up_plain.2.2 (reset_slots _ _ _ up_slot) (by decide)
      (by decide) rfl nofun rfl nofun
  · exact slot_law 15 _ up_plain.1 up_plain.2.1 up_plain.2.2 (reset_slots _ _ _ up_slot) (by decide)
      (by decide) rfl nofun rfl nofun
  · have hb := untagged (some flying) (fun p h => by cases h; rfl)
    exact slot_law 15 _ hb.1 hb.2.1 hb.2.2 (reset_slots _ _ _ up_slot) (by decide) (by decide) rfl nofun rfl
      nofun

/-- Each mode, with its target; the pin held; and a level that returns to the qualified level, leaves it
with Q above 0 and with Q = 0, and changes within an interval. -/
theorem witness_TriggerInputsAreSetAndQualified :
    (Serves up 0x38 [7, 0, 99, 255, 2] ∧ read8 [7, 0, 99, 255, 2] 0 = (7 : InputNo)
        ∧ read8 [7, 0, 99, 255, 2] 1 = TrigMode.unused.code)
      ∧ (Serves up 0x38 [7, 1, 15, 255, 2] ∧ read8 [7, 1, 15, 255, 2] 2 = (15 : Fin 16)
        ∧ read8 [7, 1, 15, 255, 2] 1 = TrigMode.fire.code)
      ∧ (Serves up 0x38 [7, 2, 15, 255, 2] ∧ read8 [7, 2, 15, 255, 2] 1 = TrigMode.recLevel.code)
      ∧ (Serves up 0x38 [7, 3, 15, 255, 2] ∧ read8 [7, 3, 15, 255, 2] 1 = TrigMode.recPulse.code)
      ∧ (Serves up 0x38 [7, 4, 99, 0, 0] ∧ read8 [7, 4, 99, 0, 0] 1 = TrigMode.noticeOnly.code)
      ∧ (State.reset.recorder.high = [] ∧ (State.reset.trig 7).raw ≠ true
          ∧ State.reset.pins.reset = true)
      ∧ ∀ r : Trigger, up.recorder.high = [] ∧ (up.setTrig 2 r).pins.reset = false
          ∧ (up.setTrig 2 r).trig 2 = r := by
  refine ⟨⟨?_, by decide⟩, ⟨?_, by decide⟩, ⟨?_, by decide⟩, ⟨?_, by decide⟩, ⟨?_, by decide⟩,
    by decide +kernel, fun r => ⟨rfl, rfl, by simp⟩⟩ <;>
  exact serves_of rfl rfl rfl (by decide)

/-- Records that meet the clauses of a raw change: back to the qualified level; away from it with Q = 1
and with Q = 0; and away from it within an interval. -/
theorem witness_TriggerInputsAreSetAndQualified_records :
    (let r := input2 (some ⟨0, 10⟩) false true;
          r.raw ≠ false ∧ false = r.level)
      ∧ (let r := { input2 none false false with q := 1 };
          r.raw ≠ true ∧ true ≠ r.level ∧ r.interval = none ∧ r.q ≠ 0)
      ∧ (let r := { input2 none false false with q := 0 };
          r.raw ≠ true ∧ true ≠ r.level ∧ r.interval = none ∧ r.q = 0)
      ∧ (let r := input2 (some ⟨0, 10⟩) false false;
          r.raw ≠ true ∧ true ≠ r.level ∧ r.interval ≠ none) := by decide

/-- An edge that fires, that starts, that stops, and that does nothing. -/
theorem witness_QualifiedEdgeActsByItsMode :
    let rec_ (mode : TrigMode) (raw : Bool) : Trigger :=
      ⟨mode, some 15, 10, true, !raw, some ⟨0, 10⟩, raw⟩
    (∀ r : Trigger, (up.setTrig 2 r).pins.reset = false ∧ (up.setTrig 2 r).recorder.high = []
        ∧ (up.setTrig 2 r).trig 2 = r)
      ∧ (rec_ .fire true).raw = true ∧ (rec_ .recLevel true).mode = .recLevel
      ∧ (up.chan 15).state = .idle
      ∧ ((up.setChan 15 { Channel.reset with state := .cueing }).chan 15).state ≠ .idle
      ∧ (rec_ .recLevel false).raw = false ∧ (rec_ .fire false).mode ≠ .recLevel
      ∧ (rec_ .fire false).raw = false := by
  refine ⟨fun r => ⟨rfl, rfl, by simp⟩, ?_⟩
  decide +kernel

/-! ### Witnesses: walls, recorders, block resets and the laws -/

/-- The first eight tiles of wall 1 show destination 3: its list is full. The last of them is queued,
and tile 63, made INVALID, behind it. -/
def crowded : State :=
  (up.setEntry 3 { Entry.reset with tiles := ((List.finRange 64).take 8).map fun i => (1, i) }).setWall 1
    { Wall.reset with
      queue := [7, 63]
      tiles := Vector.ofFn fun i => if i.1 < 8 then ⟨.dest 3, false⟩
        else if i = 63 then ⟨.invalid, true⟩ else Tile.reset }

theorem crowded_fanout : FanoutLaw crowded := by
  have he : ∀ d, (crowded.entry d).tiles
      = if d = 3 then ((List.finRange 64).take 8).map (fun i => ((1 : WallNo), i)) else [] := by
    intro d
    by_cases h : d = 3
    · subst h; decide +kernel
    · rw [if_neg h]
      show ((up.setEntry 3 _).entry d).tiles = []
      rw [State.setEntry_entry_of_ne _ _ _ h, up_entry]
      rfl
  have hk : ∀ w t, (crowded.tile w t).kind = if w = 1 ∧ t.1 < 8 then .dest 3 else .invalid := by
    decide +kernel
  have hm : ∀ (w : WallNo) (t : TileNo),
      (w, t) ∈ ((List.finRange 64).take 8).map (fun i => ((1 : WallNo), i)) ↔ w = 1 ∧ t.1 < 8 := by
    decide +kernel
  refine ⟨fun d => ?_, fun d => ?_, fun d w t => ?_⟩
  · rw [he]; split
    · decide +kernel
    · simp
  · rw [he]; split
    · decide +kernel
    · simp
  · rw [he, hk]
    by_cases hd : d = 3 <;> by_cases h : w = 1 ∧ t.1 < 8
    · rw [if_pos hd, if_pos h, hm]; simp [h, hd]
    · rw [if_pos hd, if_neg h, hm]; simp only [h, reduceCtorEq]
    · rw [if_neg hd, if_pos h]; simp [Ne.symm hd]
    · rw [if_neg hd, if_neg h]; simp

/-- A name; a tile of each kind; a tile bound to the destination whose list is full. -/
theorem witness_NameSetAndTileSetQueueTheirTiles :
    FanoutLaw tiled ∧ FanoutLaw crowded
      ∧ (Serves tiled 0x40 [3, 255, 0x1F, 0x20, 0x7E, 0x7F, 65, 66, 67, 68]
          ∧ read16 [3, 255, 0x1F, 0x20, 0x7E, 0x7F, 65, 66, 67, 68] 0 = (1023 : Source))
      ∧ (Serves tiled 0x41 [1, 5, 0, 0, 0] ∧ read8 [1, 5, 0, 0, 0] 0 = (1 : WallNo)
          ∧ read8 [1, 5, 0, 0, 0] 1 = (5 : TileNo) ∧ read8 [1, 5, 0, 0, 0] 2 = 0)
      ∧ (Serves tiled 0x41 [7, 63, 1, 1, 255] ∧ read8 [7, 63, 1, 1, 255] 2 = 1
          ∧ read16 [7, 63, 1, 1, 255] 3 = (511 : Dest) ∧ ¬ 8 ≤ (tiled.entry 511).tiles.length)
      ∧ (Serves tiled 0x41 [7, 63, 2, 3, 255] ∧ read8 [7, 63, 2, 3, 255] 2 = 2
          ∧ read16 [7, 63, 2, 3, 255] 3 = (1023 : Source))
      ∧ Serves crowded 0x41 [7, 63, 1, 0, 3] ∧ read16 [7, 63, 1, 0, 3] 3 = (3 : Dest)
          ∧ (crowded.tile 7 63).kind ≠ .dest 3 ∧ 8 ≤ (crowded.entry 3).tiles.length := by
  refine ⟨tiled_fanout, crowded_fanout, ⟨serves_of rfl rfl rfl (by decide), by decide⟩,
    ⟨serves_of rfl rfl rfl (by decide), by decide⟩,
    ⟨serves_of rfl rfl rfl (by decide), by decide +kernel⟩,
    ⟨serves_of rfl rfl rfl (by decide), by decide⟩, serves_of rfl rfl rfl (by decide),
    by decide +kernel⟩

theorem witness_WallOrdersFreezeThawAndSet :
    (Serves up 0x42 [7] ∧ read8 [7] 0 = (7 : WallNo)) ∧ Serves up 0x43 [7]
      ∧ Serves up 0x44 [7, 3, 0] ∧ read8 [7, 3, 0] 0 = (7 : WallNo)
      ∧ read8 [7, 3, 0] 1 = groupCode .d := by
  refine ⟨⟨?_, by decide⟩, ?_, ?_, by decide⟩ <;> exact serves_of rfl rfl rfl (by decide)

/-- An empty queue on an idle line; and each command that can already stand there for the channel. -/
theorem witness_IssuedCommandsAreMerged :
    let r (ops : List RecOp) : Recorder := { Recorder.reset with queue := ops.map fun o => ⟨5, o⟩ }
    ((∀ x ∈ (r []).queue, x.channel ≠ 5) ∧ (r []).line = none ∧ (r []).queue = [])
      ∧ ∀ old ∈ [RecOp.roll 1, .split 2 .a 1000, .halt 2],
          ((r [old]).queue.find? fun x => x.channel = 5) = some ⟨5, old⟩ := by decide +kernel

/-- A binding and an unbinding of an idle channel, a channel that is not idle, and a request for marks. -/
theorem witness_RecBindAndRecMarks :
    (Serves up 0x48 [15, 1, 255, 255] ∧ read8 [15, 1, 255, 255] 0 = (15 : ChannelNo)
        ∧ read16 [15, 1, 255, 255] 1 = (511 : Dest) ∧ (up.chan 15).state = .idle)
      ∧ (Serves up 0x48 [15, 255, 255, 0] ∧ read16 [15, 255, 255, 0] 1 = 0xFFFF)
      ∧ (Serves (up.setChan 15 { Channel.reset with state := .cueing }) 0x48 [15, 255, 255, 0]
          ∧ ((up.setChan 15 { Channel.reset with state := .cueing }).chan 15).state ≠ .idle)
      ∧ Serves up 0x4B [15, 0] ∧ read8 [15, 0] 0 = (15 : ChannelNo) := by
  refine ⟨⟨serves_of rfl rfl rfl (by decide), by decide +kernel⟩,
    ⟨serves_of rfl rfl rfl (by decide), by decide +kernel⟩,
    ⟨serves_of rfl rfl rfl (by decide), by decide +kernel⟩, serves_of rfl rfl rfl (by decide), by decide⟩

/-- Channel 15 in any record. -/
theorem channel_any (r : Channel) :
    Serves (up.setChan 15 r) 0x49 [15] ∧ Serves (up.setChan 15 r) 0x4A [15]
      ∧ (up.setChan 15 r).pins.reset = false ∧ (up.setChan 15 r).recorder.high = []
      ∧ (up.setChan 15 r).chan 15 = r :=
  ⟨serves_of rfl rfl rfl (by decide), serves_of rfl rfl rfl (by decide), rfl, rfl, by simp⟩

/-- An unbound channel, one that is active, and an idle one with a lead of 15 and of 0 and 23 marks. -/
theorem witness_RecStartRollsAndCuesOrRecords :
    read8 [15] 0 = (15 : ChannelNo)
      ∧ (∃ r : Channel, Serves (up.setChan 15 r) 0x49 [15] ∧ (up.setChan 15 r).chan 15 = r
          ∧ r.bound = none)
      ∧ (∃ r : Channel, Serves (up.setChan 15 r) 0x49 [15] ∧ (up.setChan 15 r).chan 15 = r
          ∧ r.bound ≠ none ∧ r.state ≠ .idle)
      ∧ (∃ r : Channel, Serves (up.setChan 15 r) 0x49 [15] ∧ (up.setChan 15 r).chan 15 = r
          ∧ r.bound = some 12 ∧ r.state = .idle ∧ r.lead ≠ 0)
      ∧ ∃ r : Channel, Serves (up.setChan 15 r) 0x49 [15] ∧ (up.setChan 15 r).chan 15 = r
          ∧ r.bound = some 12 ∧ r.state = .idle ∧ r.lead = 0 ∧ r.marks.length = 23 :=
  ⟨by decide, ⟨Channel.reset, (channel_any _).1, (channel_any _).2.2.2.2, rfl⟩,
    ⟨{ Channel.reset with bound := some 12, state := .recording }, (channel_any _).1,
      (channel_any _).2.2.2.2, nofun, nofun⟩,
    ⟨{ Channel.reset with bound := some 12, lead := 15 }, (channel_any _).1, (channel_any _).2.2.2.2, rfl,
      rfl, nofun⟩,
    { Channel.reset with
      bound := some 12, marks := List.replicate 23 ⟨.stop, .a, 0, 0, none, none⟩ },
    (channel_any _).1, (channel_any _).2.2.2.2, rfl, rfl, rfl, rfl⟩

/-- A channel that is IDLE, one that is CUEING and one that is RECORDING. -/
theorem witness_RecStopHaltsTheChannel :
    read8 [15] 0 = (15 : ChannelNo)
      ∧ ∀ st ∈ [RecState.idle, .cueing, .recording],
          let r : Channel := { Channel.reset with bound := some 12, state := st }
          Serves (up.setChan 15 r) 0x4A [15] ∧ (up.setChan 15 r).chan 15 = r ∧ r.bound = some 12
            ∧ r.state = st :=
  ⟨by decide, fun _ _ => ⟨(channel_any _).2.1, (channel_any _).2.2.2.2, rfl, rfl⟩⟩

/-- A channel that does not cue, one of another group, and one with 2 frames and with 1 frame left. -/
theorem witness_CueEndsInRecording :
    let r (n : Nat) : Channel :=
      { Channel.reset with bound := some 12, clip := 41, state := .cueing, cue := some n }
    (up.chan 15).state ≠ .cueing ∧ (up.entry 12).group ≠ .b
      ∧ ∀ n ∈ [1, 2], (up.setChan 15 (r n)).pins.reset = false
          ∧ (up.setChan 15 (r n)).recorder.high = [] ∧ (up.setChan 15 (r n)).chan 15 = r n
          ∧ (r n).state = .cueing ∧ (r n).cue = some n ∧ (r n).bound = some 12
          ∧ ((up.setChan 15 (r n)).entry 12).group = .a := by decide +kernel

theorem witness_BlockResetsOfSalvosPanelsAndWalls :
    (Serves up 0x58 [1, 0xFF] ∧ read8 [1, 0xFF] 0 = 1) ∧ (Serves up 0x58 [4, 0xFF] ∧ read8 [4, 0xFF] 0 = 4)
      ∧ (Serves up 0x58 [2, 7] ∧ read8 [2, 7] 0 = 2 ∧ read8 [2, 7] 1 < 8)
      ∧ Serves up 0x58 [2, 0xFF] ∧ read8 [2, 0xFF] 0 = 2 ∧ read8 [2, 0xFF] 1 = 0xFF := by
  refine ⟨⟨?_, by decide⟩, ⟨?_, by decide⟩, ⟨?_, by decide⟩, ?_, by decide⟩ <;>
  exact serves_of rfl rfl rfl (by decide)

theorem witness_RecordersBlockResetIdlesEveryChannel :
    Serves up 0x58 [3, 0] ∧ read8 [3, 0] 0 = 3 := ⟨serves_of rfl rfl rfl (by decide), by decide⟩

/-- A state in which nothing is carried, and a step. -/
theorem witness_EveryStepKeepsTheTallyLaw :
    ∃ s t : State, TallyLaw s ∧ s.pending ≠ [] ∧ step s = .next t := by
  refine ⟨{ up with pending := [.carrierLoss 0] }, _, ?_, nofun, rfl⟩
  have he : ∀ d, State.entry { up with pending := [.carrierLoss 0] } d = Entry.reset := up_entry
  have hc : ∀ c, State.chan { up with pending := [.carrierLoss 0] } c = Channel.reset := by
    intro c; simp [State.chan, up, State.reset, Recorder.reset]
  have ht : ∀ x, State.tallyOf { up with pending := [.carrierLoss 0] } x = Tally.reset := by
    intro x; simp [State.tallyOf, up, State.reset]
  refine ⟨fun x => ?_, fun x => ?_, fun x => ?_, fun x => ?_⟩
  · simp [ht, State.carrying, he, Entry.reset, Tally.reset]
  · simp [ht, State.carrying, he, Entry.reset, Tally.reset]
  · have h0 : (RecState.idle == RecState.recording) = false := rfl
    simp [ht, State.recording, hc, Channel.reset, Tally.reset, h0]
  · rw [ht]; decide

/-- A take in flight with its token, and a step. -/
theorem witness_EveryStepKeepsTheTokenLaw :
    ∃ s t : State, TokenLaw s ∧ s.token 16 = .inUse ∧ s.pending ≠ [] ∧ step s = .next t := by
  let s0 : State := (withTake up 12 (aTake .sent (some 16))).setToken 16 .inUse
  have hp : ∀ d p, (s0.entry d).pending = some p → d = 12 ∧ p = aTake .sent (some 16) := by
    intro d p h
    by_cases e : d = 12
    · subst e
      have h1 : (s0.entry 12).pending = some (aTake .sent (some 16)) := by decide +kernel
      rw [h1] at h
      exact ⟨rfl, (Option.some.inj h).symm⟩
    · have h1 : (s0.entry d).pending = none := by
        show ((State.setEntry _ 12 _).entry d).pending = none
        rw [State.setEntry_entry_of_ne _ _ _ e, up_entry]
        rfl
      rw [h1] at h; cases h
  have ht : ∀ k, k ≠ 16 → s0.token k = .free := by
    intro k h
    show (State.setToken _ 16 _).token k = .free
    rw [State.setToken_token_of_ne _ _ _ h]
    exact up_token k
  have hi : s0.token 16 = .inUse := State.setToken_token_self _ _ _
  refine ⟨{ s0 with pending := [.matrixTxComplete 0] }, _, ⟨fun d p h => ?_, fun d p k h hk => ?_,
    fun d e p q k h1 h2 _ _ => ?_, fun k h => ?_, fun d => Iff.intro (fun h => nomatch h) (fun ⟨p, h1, h2⟩ => ?_),
    .nil, fun h => absurd rfl h, fun d h => ?_⟩, hi, nofun, rfl⟩
  · obtain ⟨-, rfl⟩ := hp d p h
    exact ⟨fun _ => .inl rfl, fun _ => rfl⟩
  · obtain ⟨-, rfl⟩ := hp d p h
    cases hk
    exact hi
  · rw [(hp d p h1).1, (hp e q h2).1]
  · by_cases e : k = 16
    · subst e
      exact ⟨12, aTake .sent (some 16), by decide +kernel, rfl⟩
    · exact absurd ((ht k e).symm.trans h) nofun
  · obtain ⟨-, rfl⟩ := hp d p h1
    cases h2
  · refine absurd ?_ h
    show ((State.setEntry _ 12 _).entry d).next = none
    rw [State.setEntry_entry]
    split <;> rw [up_entry] <;> rfl

/-- The link SURVEYING, and a step. -/
theorem witness_EveryStepKeepsTheQuietOfALinkThatIsNotUp :
    ∃ s t : State, HeldAtReset s ∧ QuietUnlessUp s ∧ s.link.state ≠ .up ∧ s.pending ≠ []
      ∧ step s = .next t :=
  ⟨{ linked .surveying true with pending := [.surveyEnd 0 16 16] }, _, nofun,
    fun _ => ⟨fun d => by rw [show State.entry { linked .surveying true with
        pending := [.surveyEnd 0 16 16] } d = Entry.reset from up_entry d]; exact ⟨rfl, rfl⟩,
      fun k => up_token k, rfl⟩, nofun, nofun, rfl⟩

/-- Tiles bound and queued, and a step. -/
theorem witness_EveryStepKeepsTheFanoutListsAndUpdateQueues :
    ∃ s t : State, FanoutLaw s ∧ UpdateQueueLaw s ∧ (s.entry 3).tiles.length = 8
      ∧ (s.wall 1).queue = [7, 63] ∧ (s.tile 1 63).blank = true ∧ s.pending ≠ [] ∧ step s = .next t :=
  ⟨{ crowded with pending := [.takeFallsDue 0] }, _, fanout_of_eq crowded_fanout (fun _ => rfl) rfl,
    ⟨by decide +kernel, by decide +kernel, by decide +kernel⟩, by decide +kernel, by decide +kernel,
    by decide +kernel, nofun, rfl⟩

/-- A slot with two entries, and a step. -/
theorem witness_EveryStepKeepsTheSalvoStore :
    ∃ s t : State, SalvoLaw s ∧ (s.slot 15).state = .armed ∧ s.pending ≠ [] ∧ step s = .next t := by
  refine ⟨{ slot15 .armed [(12, 5), (16, 5)] with pending := [.takeFallsDue 0] }, _, ?_,
    by decide +kernel, nofun, rfl⟩
  exact slot_law 15 ⟨.armed, .a, 0, [(12, 5), (16, 5)], 0, none⟩ up_plain.1 up_plain.2.1 up_plain.2.2
    (reset_slots up 15 _ up_slot) (by decide) (by decide) rfl nofun rfl nofun

end Sys2Proof.Tests
end

section
/-! What a predicate of the state has to survive so that every command keeps it: the few operations that
reach the map, the link and the walls, each asked about once. The steps are built of them here, once for
every law that reads no other part. -/

namespace Sys2Proof.Machine

/-! ### Keeping a predicate -/

theorem foldl_keeps {I : State → Prop} {α : Type} {f : State → α → State}
    (hf : ∀ {s : State} a, I s → I (f s a)) (l : List α) {s : State} (hs : I s) : I (l.foldl f s) := by
  induction l generalizing s with
  | nil => exact hs
  | cons a l ih => exact ih (hf a hs)

/-- A predicate does not read some parts of the state. -/
def Blind (I : State → Prop) (ps : List Part) : Prop := ∀ s t, SameBut ps s t → I s → I t

/-- The parts that hold no take, no token and no tile. -/
def quietParts : List Part :=
  [.pending, .now, .pins, .control, .panels, .groups, .sched, .salvos, .triggers, .tally, .names,
    .recorder]

/-- Two states that agree on the map, the link and the walls differ in quiet parts only. -/
theorem quietParts_same {s t : State} (hm : t.map = s.map) (hl : t.link = s.link)
    (hw : t.walls = s.walls) : SameBut quietParts s t := by
  intro p hp
  cases p with
  | map => exact hm
  | link => exact hl
  | walls => exact hw
  | _ => exact absurd (by simp [quietParts]) hp

/-- A predicate that reads neither the quiet parts nor the fields of an entry beside its takes and its
tile list, and that the queuing of tiles keeps. -/
structure MapLaw (I : State → Prop) : Prop where
  quiet      : Blind I quietParts
  entry      : ∀ s d (e : Entry), e.pending = (s.entry d).pending → e.next = (s.entry d).next →
    e.tiles = (s.entry d).tiles → I s → I (s.setEntry d e)
  showDest   : ∀ {s : State} d, I s → I (s.announceDest d)
  showSource : ∀ {s : State} x, I s → I (s.announceSource x)

/-- Besides, each operation that writes takes, tokens, tiles or update queues keeps the predicate: what is
left is how the commands are made of them. -/
structure StepLaw (I : State → Prop) : Prop extends MapLaw I where
  wires     : ∀ s (l : Link), l.pool = s.link.pool → l.waiting = s.link.waiting → I s →
    I { s with link := l }
  counts    : ∀ s (a b : Nat), I s → I { s with map := { s.map with dests := a, sources := b } }
  wall      : ∀ s w (r : Wall), r.queue = (s.wall w).queue → r.tiles = (s.wall w).tiles → I s →
    I (s.setWall w r)
  thaw      : ∀ {s : State} w, I s → I (s.queueTiles ((s.validTiles w).map fun t => (w, t)))
  tileSet   : ∀ {s : State} o, I s → I (serveTileSet o s).state
  drain     : ∀ {s : State} f w, I s → I (s.drainWall f w)
  clearWall : ∀ {s : State} w, I s → I (s.resetWall w)
  arrive    : ∀ {s : State} d n pl, I s → I (s.arrive d n pl).2
  request   : ∀ s d p, (s.entry d).pending = some p → p.phase = .held → I s → I (s.requestToken d)
  advance   : ∀ s d p q, (s.entry d).pending = some p → q.token = p.token →
    (q.phase = p.phase ∨ p.phase = .sent ∧ q.phase = .overdue) → I s → I (s.setPending d q)
  timeOut   : ∀ s d p, (s.entry d).pending = some p → p.phase = .overdue → I s → I (s.timeOut d)
  matched   : ∀ s d x t held p, (s.entry d).pending = some p → p.token = some t → I s →
    I (s.applyMatched d x t held)
  stray     : ∀ s t d, s.token t = .stale d → I s → I (s.freeToken t)
  depart    : ∀ {s : State} k, I s → I (s.departUp k)
  untag     : ∀ {s : State}, I s → I s.resetSalvos
  reset     : ∀ s : State, I s.assertReset

/-! ### What an action on one destination leaves of the others -/

theorem announceDest_entry (s : State) (d c : Dest) : (s.announceDest d).entry c = s.entry c := by
  have h : (s.announceDest d).map = s.map := announceDest_same s d .map (by decide)
  simp [State.entry, h]

theorem entry_of_same {ps : List Part} {s t : State} (h : SameBut ps s t)
    (hp : Part.map ∉ ps := by decide) (c : Dest) : t.entry c = s.entry c := by
  have hm : t.map = s.map := h .map hp
  simp [State.entry, hm]

theorem setPending_entry_of_ne (s : State) {d c : Dest} (h : c ≠ d) (p : Pending) :
    (s.setPending d p).entry c = s.entry c := s.setEntry_entry_of_ne d _ h

@[simp] theorem setPending_entry_self (s : State) (d : Dest) (p : Pending) :
    (s.setPending d p).entry d = { s.entry d with pending := some p } := s.setEntry_entry_self d _

theorem setSuspect_entry_of_ne (s : State) {d c : Dest} (h : c ≠ d) (v : Bool) :
    (s.setSuspect d v).entry c = s.entry c := by
  unfold State.setSuspect
  split
  · rfl
  · rw [announceDest_entry, s.setEntry_entry_of_ne d _ h]

theorem reportTake_entry (s : State) (d : Dest) (ticket : Word16) (tag : Option SlotNo) (r : TakeResult)
    (b : Bool) (c : Dest) : (s.reportTake d ticket tag r b).entry c = s.entry c :=
  entry_of_same (reportTake_same s d ticket tag r b) (by decide) c

theorem endNext_entry_of_ne (s : State) {d c : Dest} (h : c ≠ d) (r : TakeResult) :
    (s.endNext d r).entry c = s.entry c := by
  unfold State.endNext
  split
  · rfl
  · rw [reportTake_entry, s.setEntry_entry_of_ne d _ h]

theorem placeHeld_entry_of_ne (s : State) {d c : Dest} (h : c ≠ d) (n : NextTake) (pl : Placement) :
    (s.placeHeld d n pl).entry c = s.entry c := by
  unfold State.placeHeld
  rw [announceDest_entry, s.setEntry_entry_of_ne d _ h]

theorem promote_entry_of_ne (s : State) {d c : Dest} (h : c ≠ d) :
    (s.promote d).entry c = s.entry c := by
  unfold State.promote
  split
  · rfl
  · split
    · rw [placeHeld_entry_of_ne _ h, s.setEntry_entry_of_ne d _ h]
    · exact endNext_entry_of_ne s h _

theorem dropWaiting_entry (s : State) (d c : Dest) : (s.dropWaiting d).entry c = s.entry c := rfl

theorem endPending_entry_of_ne (s : State) {d c : Dest} (h : c ≠ d) (r : TakeResult) :
    (s.endPending d r).entry c = s.entry c := by
  unfold State.endPending
  split
  · rfl
  · dsimp only
    split <;> split <;>
      simp only [promote_entry_of_ne _ h, reportTake_entry, announceDest_entry, dropWaiting_entry,
        s.setEntry_entry_of_ne d _ h]

theorem timeOut_entry_of_ne (s : State) {d c : Dest} (h : c ≠ d) :
    (s.timeOut d).entry c = s.entry c := by
  unfold State.timeOut
  split
  · rfl
  · dsimp only
    rw [endPending_entry_of_ne _ h, entry_of_same (logSuspect_same _ d) (by decide)]
    split
    · exact setSuspect_entry_of_ne s h true
    · exact setSuspect_entry_of_ne s h true

theorem treatTake_entry_of_ne (b : Boundary) (s : State) {d c : Dest} (h : c ≠ d) :
    (s.treatTake b d).entry c = s.entry c := by
  unfold State.treatTake
  split
  · rfl
  · split
    · split <;> exact setPending_entry_of_ne s h _
    · exact setPending_entry_of_ne s h _
    · split <;> exact setPending_entry_of_ne s h _
    · split
      · exact timeOut_entry_of_ne s h
      · exact setPending_entry_of_ne s h _

theorem requestToken_entry_of_ne (s : State) {d c : Dest} (h : c ≠ d) :
    (s.requestToken d).entry c = s.entry c := by
  unfold State.requestToken
  split
  · rfl
  · split
    · exact setPending_entry_of_ne (s.setToken _ .inUse) h _
    · exact setPending_entry_of_ne s h _

/-! ### A take in HELD at its boundary -/

/-- The pending take of a destination is in HELD. -/
def State.holdsHeld (s : State) (d : Dest) : Prop :=
  ∃ p, (s.entry d).pending = some p ∧ p.phase = .held

theorem isDue_held {s : State} {d : Dest} (h : s.isDue d = true) : s.holdsHeld d := by
  unfold State.isDue at h
  split at h
  · exact absurd h (by decide)
  · rename_i p hp
    simp only [Bool.and_eq_true, beq_iff_eq] at h
    exact ⟨p, hp, h.1.1⟩

theorem shortFrame_held {s : State} {d : Dest} (h : (s.entry d).shortFrame = true) : s.holdsHeld d := by
  unfold Entry.shortFrame at h
  split at h
  · exact absurd h (by decide)
  · rename_i p hp
    simp only [Bool.and_eq_true, beq_iff_eq] at h
    exact ⟨p, hp, h.1⟩

/-- A boundary leaves a take in HELD there: what sends it comes after. -/
theorem treatTake_held (b : Boundary) {s : State} {c : Dest} (h : s.holdsHeld c) (d : Dest) :
    (s.treatTake b d).holdsHeld c := by
  by_cases hcd : c = d
  · subst hcd
    obtain ⟨p, hp, hph⟩ := h
    simp only [State.treatTake, hp, hph]
    split
    · exact ⟨{ p with phase := .held, landing := p.landing - 1 }, by rw [setPending_entry_self], rfl⟩
    · exact ⟨p.heldOn b, by rw [setPending_entry_self], hph⟩
  · simpa only [State.holdsHeld, treatTake_entry_of_ne b s hcd] using h

theorem requestToken_held_of_ne {s : State} {c d : Dest} (hcd : c ≠ d) (h : s.holdsHeld c) :
    (s.requestToken d).holdsHeld c := by
  simpa only [State.holdsHeld, requestToken_entry_of_ne s hcd] using h

/-! ### What the matrix line's traffic leaves alone -/

@[simp] theorem Link.begin_pool (l : Link) : l.begin.pool = l.pool := by
  unfold Link.begin; split <;> rfl

@[simp] theorem Link.begin_waiting (l : Link) : l.begin.waiting = l.waiting := by
  unfold Link.begin; split <;> rfl

@[simp] theorem sendMatrix_pool (s : State) (m : MatrixMsg) : (s.sendMatrix m).link.pool = s.link.pool :=
  Link.begin_pool _

@[simp] theorem sendMatrix_waiting (s : State) (m : MatrixMsg) :
    (s.sendMatrix m).link.waiting = s.link.waiting := Link.begin_waiting _

/-! ### How a report is classified (R80) -/

theorem holds_iff (s : State) (d : Dest) (t : Token) :
    s.holds d t = true ↔ ∃ p, (s.entry d).pending = some p ∧ p.token = some t := by
  unfold State.holds
  split <;> simp [*]

/-- A report is classified as matched when the pending take holds its token, and as stray when its token
is stale. -/
theorem classify_cases (s : State) (d : Dest) (token : Byte) (survey : Bool) :
    (∃ t p, s.classify d token survey = .matched t ∧ s.token t = .inUse
        ∧ (s.entry d).pending = some p ∧ p.token = some t)
      ∨ (∃ t, s.classify d token survey = .stray t ∧ s.token t = .stale d)
      ∨ s.classify d token survey = .foreign ∨ s.classify d token survey = .unknown := by
  unfold State.classify
  split
  · simp
  · split
    · simp
    · rename_i t _
      split
      · rename_i hu
        split
        · obtain ⟨p, hp, ht⟩ := (holds_iff s d t).1 ‹_›
          exact .inl ⟨t, p, rfl, hu, hp, ht⟩
        · simp
      · rename_i e hst
        split
        · rename_i he
          exact .inr (.inl ⟨t, rfl, he ▸ hst⟩)
        · simp
      · simp

/-! ### From the operations to the commands -/

/-- The takes of some destinations that are due are in HELD when they ask the pool. -/
theorem dispatchDue_keeps {I : State → Prop}
    (hr : ∀ {s : State} d, s.holdsHeld d → I s → I (s.requestToken d)) (ds : List Dest) {s : State}
    (hs : I s) : I (s.dispatchDue ds) := by
  refine foldl_keeps (fun d hs => ?_) ds hs
  split
  · exact hr d (isDue_held ‹_›) hs
  · exact hs

theorem next_keeps {I : State → Prop} {u t : State}
    (ht : Host.Outcome.next (φ := Fault) (ρ := Refusal) u = .next t) (hu : I u) : I t :=
  Host.Outcome.next.inj ht ▸ hu

theorem ifFormed_keeps {I : State → Prop} {act : Order → State → Answer}
    (ha : ∀ {s : State} o, I s → I (act o s).state) (o : Order) {s : State} (hs : I s) :
    I (ifFormed act o s).state := by
  unfold ifFormed
  split
  · exact ha o hs
  · exact hs

namespace MapLaw

variable {I : State → Prop} (h : MapLaw I) {s : State}
include h

/-- A change of parts that the predicate does not read. -/
theorem still {ps : List Part} {s t : State} (hst : SameBut ps s t) (hs : I s)
    (hp : ∀ p ∈ ps, p ∈ quietParts := by decide) : I t := h.quiet s t (hst.mono hp) hs

theorem raise (n : Notice) (hs : I s) : I (s.raise n) :=
  h.still (raise_same s n) hs

theorem serveIf {act : Order → State → Answer} (ha : ∀ {s : State} o, I s → I (act o s).state) (τ : Nat)
    (mine : Order → Bool) (hs : I s) : I (s.serveIf τ mine act) := by
  unfold State.serveIf
  split
  · split
    · exact hs
    · rename_i o _ _
      split
      · refine h.still (finishServing_same _ _ _ _) (ha o ?_)
        exact h.still (beginServing_same _ o)
          (h.still (clock_same s τ) hs)
      · exact hs
  · exact hs

theorem serve {act : Order → State → Answer} (ha : ∀ {s : State} o, I s → I (act o s).state) (τ : Nat)
    (code : Byte) (hs : I s) : I (s.serve τ code act) :=
  h.serveIf (fun o hs => ifFormed_keeps ha o hs) τ _ hs

theorem event {f : State → State} (hf : ∀ {s : State}, I s → I (f s)) (τ : Nat) (hs : I s) :
    I (s.event τ f) := by
  unfold State.event
  split
  · exact hs
  · exact h.still (flushHigh_same _)
      (hf (h.still (clock_same s τ) hs))

/-! ### Tally and the recorders -/

theorem compareColour (x : Option Source) (hs : I s) : I (s.compareColour x) := by
  unfold State.compareColour
  split
  · exact hs
  · dsimp only
    split
    · exact hs
    · exact h.showSource _ (h.still (setTally_same s _ _) hs)

theorem tallyRecord (d : Dest) (up : Bool) (hs : I s) : I (s.tallyRecord d up) :=
 
  h.compareColour _ (h.still (bump_same s _ _ _) hs)

theorem tallyChannel (c : ChannelNo) (up : Bool) (hs : I s) : I (s.tallyChannel c up) := by
  unfold State.tallyChannel
  split
  · exact hs
  · exact h.tallyRecord _ up hs

theorem tallyClass (a b : DestClass) (x : Option Source) (hs : I s) : I (s.tallyClass a b x) :=
  h.compareColour _
    (h.still ((bumpClass_same s a false x).trans (bumpClass_same _ b true x)) hs)

theorem tallyChange (d : Dest) (old new : Option Source) (hs : I s) : I (s.tallyChange d old new) :=
  h.compareColour _ (h.compareColour _
    (h.still (((bumpClass_same s _ _ _).trans (bumpClass_same _ _ _ _)).trans
      (SameBut.foldl (fun s _ => moveCount_same s .record old new) _ _)) hs))

theorem enterRecording (c : ChannelNo) (k : RecCause) (hs : I s) : I (s.enterRecording c k) :=
  h.still (raiseRec_same _ c _ _)
    (h.still (logMark_same _ c _)
      (h.tallyChannel c true (h.still (setChan_same s c _) hs)))

theorem recStart (c : ChannelNo) (k : RecCause) (hs : I s) : I (s.recStart c k).2 := by
  unfold State.recStart
  dsimp only
  have hi := fun r op g f => h.still (issue_same (s.setChan c r) c op g f)
    (h.still (setChan_same s c r) hs)
  split
  · exact hs
  · split
    · exact hs
    · split
      · exact h.enterRecording c k (hi _ _ _ _)
      · exact h.still (raiseRec_same _ c _ _)
          (h.still (setChan_same _ c _) (hi _ _ _ _))

theorem recStop (c : ChannelNo) (k : RecCause) (hs : I s) : I (s.recStop c k) := by
  unfold State.recStop
  dsimp only
  split
  · exact hs
  · exact h.still (((setChan_same s c _).trans (issueHalt_same _ c)).comp (raiseRec_same _ c _ _)
      (rs := [.recorder, .control]) (by decide) (by decide)) hs
  · exact h.still ((issueHalt_same _ c).comp (raiseRec_same _ c _ _) (rs := [.recorder, .control])
      (by decide) (by decide)) (h.tallyChannel c false
        (h.still ((logMark_same s c _).trans (setChan_same _ c _)) hs))

theorem cueBoundary (c : ChannelNo) (hs : I s) : I (s.cueBoundary c) := by
  unfold State.cueBoundary
  split
  · exact hs
  · split
    · exact h.enterRecording c _ hs
    · exact h.still (setChan_same s c _) hs

theorem recordersAtBoundary (g : Group) (hs : I s) : I (s.recordersAtBoundary g) :=
 
  foldl_keeps h.cueBoundary _ hs

theorem resetRecorders (hs : I s) : I s.resetRecorders :=
 
  foldl_keeps (f := fun (s : State) (x : Source) => s.compareColour (some x))
    (fun x hs => h.compareColour (some x) hs) _
    (h.still (SameBut.foldl resetChannel_same (List.finRange 16) s) hs)

/-! ### The map -/

theorem sourceShown (d : Dest) (old new : Option Source) (hs : I s) : I (s.sourceShown d old new) :=
  h.tallyChange d old new (h.showDest d hs)

theorem writeSource (d : Dest) (x : Option Source) (k : ChangeCause) (hs : I s) :
    I (s.writeSource d x k) := by
  unfold State.writeSource
  dsimp only
  split
  · exact hs
  · exact h.still (splitRecorders_same _ d k _ x)
      (h.sourceShown d _ x (h.entry s d _ rfl rfl rfl hs))

theorem clearSource (d : Dest) (hs : I s) : I (s.clearSource d) :=
 
  h.sourceShown d _ none (h.entry s d { s.entry d with source := none } rfl rfl rfl hs)

theorem setSuspect (d : Dest) (v : Bool) (hs : I s) : I (s.setSuspect d v) := by
  unfold State.setSuspect
  split
  · exact hs
  · exact h.showDest d (h.entry s d _ rfl rfl rfl hs)

theorem setLock (d : Dest) (v : Option PanelNo) (hs : I s) : I (s.setLock d v) := by
  unfold State.setLock
  split
  · exact hs
  · exact h.showDest d (h.entry s d _ rfl rfl rfl hs)

theorem setProtect (d : Dest) (v : Level) (hs : I s) : I (s.setProtect d v) := by
  unfold State.setProtect
  split
  · exact hs
  · exact h.showDest d (h.entry s d _ rfl rfl rfl hs)

end MapLaw

namespace StepLaw

variable {I : State → Prop} (h : StepLaw I) {s : State}
include h

/-! ### Takes -/

theorem requestHeld {d : Dest} (hd : s.holdsHeld d) (hs : I s) : I (s.requestToken d) := by
  obtain ⟨p, hp, hph⟩ := hd
  exact h.request s d p hp hph hs

theorem dispatchDue (ds : List Dest) (hs : I s) : I (s.dispatchDue ds) :=
  dispatchDue_keeps (fun _ hd hs => h.requestHeld hd hs) ds hs

theorem treatTake (b : Boundary) (d : Dest) (hs : I s) : I (s.treatTake b d) := by
  unfold State.treatTake
  split
  · exact hs
  · rename_i p hp
    split
    · split <;> exact h.advance s d p _ hp rfl (.inl rfl) hs
    · exact h.advance s d p _ hp rfl (.inl rfl) hs
    · rename_i hph
      split
      · exact h.advance s d p _ hp rfl (.inr ⟨hph, rfl⟩) hs
      · exact h.advance s d p _ hp rfl (.inl rfl) hs
    · rename_i hph
      split
      · exact h.timeOut s d p hp hph hs
      · exact h.advance s d p _ hp rfl (.inl rfl) hs

/-- Takes of different destinations ask the pool, each of them still in HELD when its turn comes. -/
theorem requestEach (ask : State → Dest → Bool) (short : Dest → Prop)
    (hask : ∀ s d, ask s d = true → s.holdsHeld d ∨ short d) (l : List Dest) (hl : l.Nodup) (s : State)
    (hshort : ∀ d ∈ l, short d → s.holdsHeld d) (hs : I s) :
    I (l.foldl (fun s d => if ask s d then s.requestToken d else s) s) := by
  induction l generalizing s with
  | nil => exact hs
  | cons d l ih =>
    obtain ⟨hdl, hl⟩ := List.nodup_cons.1 hl
    have hrest : ∀ c ∈ l, short c → s.holdsHeld c := fun c hc => hshort c (List.mem_cons_of_mem d hc)
    rw [List.foldl_cons]
    split
    · rename_i ha
      have hd : s.holdsHeld d := (hask s d ha).elim id (hshort d List.mem_cons_self)
      refine ih hl _ (fun c hc hsc => ?_) (h.requestHeld hd hs)
      exact requestToken_held_of_ne (fun e => hdl (e ▸ hc)) (hrest c hc hsc)
    · exact ih hl s hrest hs

theorem takesAtBoundary (b : Boundary) (hs : I s) : I (s.takesAtBoundary b) := by
  unfold State.takesAtBoundary
  dsimp only
  generalize hsh : (s.takesOf b.group).filter (fun d => (s.entry d).shortFrame) = short
  refine h.requestEach (fun u d => short.contains d || u.isDue d) (· ∈ short) (fun u d ha => ?_) _
    (select_nodup _ _) _ (fun c _ hc => ?_) (foldl_keeps (h.treatTake b) _ hs)
  · rcases Bool.or_eq_true_iff.1 ha with hc | hd
    · exact .inr (List.contains_iff_mem.1 hc)
    · exact .inl (isDue_held hd)
  · refine foldl_keeps (I := fun u => u.holdsHeld c) (fun d hu => treatTake_held b hu d) _ ?_
    rw [← hsh, List.mem_filter] at hc
    exact shortFrame_held hc.2

/-! ### Reference groups -/

theorem wallsAtBoundary (g : Group) (f : FrameNo) (hs : I s) : I (s.wallsAtBoundary g f) :=
  foldl_keeps (f := fun (s : State) w => s.drainWall f w) (h.drain f) _ hs

theorem handOn (b : Boundary) (order : FollowerOrder) (hs : I s) :
    I (s.handOn b order) := by
  have ht := fun {u : State} (hu : I u) => h.takesAtBoundary b hu
  have hw := fun {u : State} (hu : I u) => h.wallsAtBoundary b.group b.frame hu
  have hr := fun {u : State} (hu : I u) => h.recordersAtBoundary b.group hu
  cases order
  · exact hr (hw (ht hs))
  · exact hw (hr (ht hs))
  · exact hr (ht (hw hs))
  · exact ht (hr (hw hs))
  · exact hw (ht (hr hs))
  · exact ht (hw (hr hs))

theorem boundary (g : Group) (time : Nat) (state : RefState) (p : Nat) (en : Bool) (k : Option RefKind)
    (order : FollowerOrder) (hs : I s) : I (s.boundary g time state p en k order) := by
  unfold State.boundary
  dsimp only
  split
  · exact hs
  · exact h.handOn _ order (h.still (raiseRef_same _ g k)
      (h.still (setGrp_same s g _) hs))

theorem expireTolerance (g : Group) (order : FollowerOrder) (hs : I s) : I (s.expireTolerance g order) :=
 
  h.boundary g _ _ _ _ _ order (h.still (clock_same s _) hs)

theorem freewheel (g : Group) (order : FollowerOrder) (hs : I s) : I (s.freewheel g order) :=
  h.boundary g _ _ _ _ _ order (h.still (clock_same s _) hs)

theorem recapture (g : Group) (order : FollowerOrder) (hs : I s) : I (s.recapture g order) := by
  unfold State.recapture
  dsimp only
  split
  · exact h.boundary g _ _ _ _ _ order hs
  · exact h.still (raiseRef_same _ g _)
      (h.still (setGrp_same s g _) hs)

theorem edge (g : Group) (order : FollowerOrder) (hs : I s) : I (s.edge g order) := by
  unfold State.edge State.edgeLocked
  dsimp only
  split
  · exact hs
  · split <;> exact h.boundary g _ _ _ _ _ order hs
  · exact h.recapture g order hs

theorem expireBefore (τ : Nat) (g : Group) (order : FollowerOrder) (hs : I s) :
    I (s.expireBefore τ g order) := by
  unfold State.expireBefore
  dsimp only
  split
  · exact h.event (h.expireTolerance g order) _ hs
  · exact hs

theorem serveRefSet (order : FollowerOrder) (o : Order) (hs : I s) :
    I (Machine.serveRefSet order o s).state := by
  unfold Machine.serveRefSet
  have hg := fun g r => h.still (setGrp_same s g r) hs
  split
  · split
    · exact h.boundary _ _ _ _ _ _ order (hg _ _)
    · exact hg _ _
  · exact hs

/-! ### The matrix link -/

theorem sendMatrix (m : MatrixMsg) (hs : I s) : I (s.sendMatrix m) :=
 
  h.wires s _ (sendMatrix_pool s m) (sendMatrix_waiting s m) hs

theorem unmatch (hs : I s) : I s.unmatch :=
  h.wires s _ rfl rfl hs

theorem setLink (v : LinkState) (k : LinkCause) (hs : I s) : I (s.setLink v k) :=
 
  h.raise _ (h.wires s { s.link with state := v } rfl rfl hs)

theorem startSurvey (hs : I s) : I s.startSurvey :=
 
  h.raise _ (h.sendMatrix .surveyReq (h.wires s { s.link with state := .surveying } rfl rfl hs))

theorem linkDown (k : LinkCause) (hs : I s) : I (s.linkDown k) := by
  unfold State.linkDown
  split
  · exact hs
  · exact h.setLink .down k (h.wires s { s.link with queue := [] } rfl rfl hs)
  · exact h.depart k hs

theorem resetLink (hs : I s) : I s.resetLink := by
  unfold State.resetLink
  dsimp only
  have h1 := h.wires _ { (s.linkDown .blockReset).link with unmatched := 0 } rfl rfl
    (h.linkDown .blockReset hs)
  split
  · exact h.startSurvey h1
  · exact h1

theorem loseCarrier (hs : I s) : I s.loseCarrier :=
 
  h.linkDown _ (h.wires s { s.link with receiver := .hunting, line := none } rfl rfl hs)

theorem surveyReport (r : Report) (hs : I s) : I (s.surveyReport r) := by
  unfold State.surveyReport
  split
  · exact h.setSuspect _ false (h.writeSource _ _ _ hs)
  · exact h.unmatch hs

theorem applyForeign (d : Dest) (x : Source) (t : Byte) (b : Bool) (hs : I s) :
    I (s.applyForeign d x t b) := by
  unfold State.applyForeign
  dsimp only
  have h1 := h.setSuspect d false (h.writeSource d (some x) .foreign hs)
  split
  · exact h1
  · exact h.raise _ h1

theorem upReport (r : Report) (hs : I s) : I (s.upReport r) := by
  unfold State.upReport
  split
  · rename_i d x _ _
    split
    · exact h.unmatch hs
    · obtain ⟨t, p, hc, -, hp, ht⟩ | ⟨t, hc, hst⟩ | hc | hc :=
        classify_cases s d r.token r.survey <;> rw [hc]
      · exact h.matched s d x t r.held p hp ht hs
      · exact h.applyForeign d x r.token true (h.stray s t d hst hs)
      · exact h.applyForeign d x r.token false hs
      · exact h.applyForeign d x r.token false (h.unmatch hs)
  · exact h.unmatch hs

theorem report (r : Report) (hs : I s) : I (s.report r) := by
  unfold State.report
  split
  · exact hs
  · exact h.surveyReport r hs
  · exact h.upReport r hs

theorem endSurvey (a b : Nat) (hs : I s) : I (s.endSurvey a b) := by
  unfold State.endSurvey
  split
  · exact hs
  · exact h.unmatch hs
  · exact h.setLink .up _ (h.still (splitLost_same _ _)
      (foldl_keeps h.clearSource _ (h.counts s (clamp 1 512 a) (clamp 1 1024 b) hs)))

theorem matrixBody (body : List Byte) (hs : I s) : I (s.matrixBody body) := by
  unfold State.matrixBody
  split
  · exact h.report _ hs
  · split
    · exact h.endSurvey _ _ hs
    · exact h.unmatch hs

theorem matrixByte (b : Byte) (hs : I s) : I (s.matrixByte b) := by
  unfold State.matrixByte
  dsimp only
  have h1 := h.wires s { s.link with receiver := (receiverTake s.link.receiver b).1 } rfl rfl hs
  split
  · exact h1
  · exact h.unmatch h1
  · exact h.still (flushHigh_same _) (h.matrixBody _ h1)

theorem matrixGap (hs : I s) : I s.matrixGap :=
 
  h.unmatch (h.wires s { s.link with receiver := .hunting } rfl rfl hs)

theorem endMatrixGap (hs : I s) : I s.endMatrixGap := by
  unfold State.endMatrixGap
  split
  · exact h.matrixGap hs
  · exact hs

theorem matrixBytes (bytes : List Byte) (hs : I s) : I (s.matrixBytes bytes) := by
  unfold State.matrixBytes
  dsimp only
  split
  · exact hs
  · exact foldl_keeps h.matrixByte bytes (h.wires _ _ rfl rfl (h.endMatrixGap hs))

theorem wholeMessage {f : State → State} (hf : ∀ {s : State}, I s → I (f s)) (τ : Nat) (hs : I s) :
    I (s.wholeMessage τ f) := by
  unfold State.wholeMessage
  split
  · exact h.event (fun hs => hf (h.endMatrixGap hs)) τ hs
  · exact hs

/-! ### Salvos, triggers and the resets of the part -/

theorem fireEntry (k : SlotNo) (owner : PanelNo) (pl : Placement) (acc : FireAccount × State)
    (e : Dest × Source) (hs : I acc.2) : I (Machine.fireEntry k owner pl acc e).2 := by
  obtain ⟨a, s⟩ := acc
  unfold Machine.fireEntry
  dsimp only
  have h1 := h.arrive e.1 ⟨e.2, owner, 0, some k⟩ pl hs
  split
  · exact hs
  · split <;> (rename_i heq; rw [heq] at h1; exact h1)

theorem fireEntries (k : SlotNo) (owner : PanelNo) (pl : Placement) (l : List (Dest × Source))
    (acc : FireAccount × State) (hs : I acc.2) : I (l.foldl (Machine.fireEntry k owner pl) acc).2 := by
  induction l generalizing acc with
  | nil => exact hs
  | cons e l ih => exact ih _ (h.fireEntry k owner pl acc e hs)

theorem fire (k : SlotNo) (hs : I s) : I (s.fire k).state := by
  unfold State.fire
  dsimp only
  split
  · exact hs
  · split
    · exact hs
    · split
      · exact hs
      · exact h.dispatchDue _ (h.still (setSlot_same _ k _)
          (h.fireEntries k _ _ _ (FireAccount.start, s) hs))

theorem serveTake (o : Order) (hs : I s) : I (Machine.serveTake o s).state := by
  unfold Machine.serveTake
  split
  · rename_i d x p _ _ _
    split
    · exact hs
    · dsimp only
      have h1 := h.arrive d ⟨x, p, o.ticket, none⟩ (s.placement (s.entry d).group) hs
      split <;> (rename_i heq; rw [heq] at h1)
      · exact h1
      · exact h.dispatchDue [d] h1
  · exact hs

theorem edgeAct (r : Trigger) (rising : Bool) (hs : I s) : I (s.edgeAct r rising).state := by
  unfold State.edgeAct edgeFire edgeStart edgeStop edgeIdle
  split
  · exact h.fire _ hs
  · exact h.recStart _ _ hs
  · exact h.recStop _ _ hs
  · split
    · exact h.recStart _ _ hs
    · exact h.recStop _ _ hs
  · exact hs

theorem qualify (i : InputNo) (hs : I s) : I (s.qualify i) := by
  unfold State.qualify
  dsimp only
  have h1 := h.still (flushHigh_same _)
    (h.edgeAct { s.trig i with level := (s.trig i).raw, interval := none } (s.trig i).raw
      (h.still (setTrig_same s i { s.trig i with level := (s.trig i).raw, interval := none }) hs))
  split
  · exact h.raise _ h1
  · exact h1

theorem startInterval (i : InputNo) (hs : I s) : I (s.startInterval i) := by
  unfold State.startInterval
  dsimp only
  have h1 := h.still (setTrig_same s i { s.trig i with interval := some ⟨s.now, (s.trig i).q.toNat⟩ }) hs
  split
  · exact h.qualify i h1
  · exact h1

theorem rawChange (i : InputNo) (b : Bool) (hs : I s) : I (s.rawChange i b) := by
  unfold State.rawChange
  dsimp only
  have h1 := h.still (setTrig_same s i { s.trig i with raw := b }) hs
  split
  · exact h.still (setTrig_same _ i _) h1
  · split
    · exact h.startInterval i h1
    · exact h1

theorem readRaw (i : InputNo) (hs : I s) : I (s.readRaw i) := by
  unfold State.readRaw
  split
  · exact h.startInterval i hs
  · exact hs

theorem releaseReset (hs : I s) : I s.releaseReset := by
  unfold State.releaseReset State.readCarrier
  dsimp only
  have h0 : I { s with now := 0, pins := { s.pins with reset := false } } :=
    h.quiet s _ (quietParts_same rfl rfl rfl) hs
  refine foldl_keeps h.readRaw _ (h.still (SameBut.foldl issueHalt_same _ _) ?_)
  split
  · exact h.startSurvey h0
  · exact h0

theorem deviceReset (s : State) : I s.deviceReset := h.releaseReset (h.reset _)

/-! ### The orders -/

theorem serveDestSet (o : Order) (hs : I s) : I (Machine.serveDestSet o s).state := by
  unfold Machine.serveDestSet answer
  split
  · rename_i d c g _ _ _
    dsimp only
    have h1 := h.entry s d { s.entry d with cls := c, group := g } rfl rfl rfl hs
    split
    · exact hs
    · dsimp only
      split
      · exact h1
      · exact h.tallyClass _ _ _ h1
  · exact hs

theorem serveLock (o : Order) (hs : I s) : I (Machine.serveLock o s).state := by
  unfold Machine.serveLock
  split
  · split
    · exact hs
    · exact h.setLock _ _ hs
  · exact hs

theorem serveUnlock (o : Order) (hs : I s) : I (Machine.serveUnlock o s).state := by
  unfold Machine.serveUnlock
  split
  · split
    · exact hs
    · split
      · exact h.setLock _ _ hs
      · exact hs
  · exact hs

theorem serveProtect (o : Order) (hs : I s) : I (Machine.serveProtect o s).state := by
  unfold Machine.serveProtect
  split
  · split
    · exact hs
    · exact h.setProtect _ _ hs
  · exact hs

theorem serveSalvoFire (o : Order) (hs : I s) : I (Machine.serveSalvoFire o s).state := by
  unfold Machine.serveSalvoFire
  split
  · exact hs
  · exact h.fire _ hs

theorem serveNameSet (o : Order) (hs : I s) : I (Machine.serveNameSet o s).state := by
  unfold Machine.serveNameSet
  split
  · exact hs
  · exact h.showSource _ (h.still (setName_same s _ _) hs)

theorem serveWallFreeze (o : Order) (hs : I s) : I (Machine.serveWallFreeze o s).state := by
  unfold Machine.serveWallFreeze
  split
  · exact hs
  · exact h.wall s _ _ rfl rfl hs

theorem serveWallThaw (o : Order) (hs : I s) : I (Machine.serveWallThaw o s).state := by
  unfold Machine.serveWallThaw
  split
  · exact hs
  · exact h.thaw _ (h.wall s _ _ rfl rfl hs)

theorem serveWallSet (o : Order) (hs : I s) : I (Machine.serveWallSet o s).state := by
  unfold Machine.serveWallSet
  split
  · exact h.wall s _ _ rfl rfl hs
  · exact hs

theorem serveRecStart (o : Order) (hs : I s) : I (Machine.serveRecStart o s).state := by
  unfold Machine.serveRecStart answer
  split
  · exact hs
  · rename_i c _
    have h1 := h.recStart c .order hs
    split <;> (rename_i heq; rw [heq] at h1; exact h1)

theorem serveRecStop (o : Order) (hs : I s) : I (Machine.serveRecStop o s).state := by
  unfold Machine.serveRecStop
  split
  · exact hs
  · exact h.recStop _ _ hs

theorem resetWalls (w : Option WallNo) (hs : I s) : I (s.resetWalls w) := by
  cases w with
  | none => exact foldl_keeps h.clearWall _ hs
  | some w => exact h.clearWall w hs

theorem resetBlock (b : Block) (hs : I s) : I (s.resetBlock b) := by
  cases b with
  | link => exact h.resetLink hs
  | salvos => exact h.untag hs
  | walls w => exact h.resetWalls w hs
  | recorders => exact h.resetRecorders hs
  | panels => exact h.quiet s _ (quietParts_same rfl rfl rfl) hs

theorem serveBlock (τ : Nat) (these : Block → Bool) (hs : I s) :
    I (s.serveBlock τ these) := by
  refine h.serveIf (fun o hs => ifFormed_keeps (fun o hs => ?_) o hs) τ _ hs
  unfold serveBlockReset
  split
  · exact hs
  · exact h.resetBlock _ hs

/-! ### Every command -/

/-- A command that writes none of the parts the predicate reads. -/
theorem execQuiet {c : Instr} (hc : ∀ p ∈ footprint c, p ∈ quietParts) {s t : State}
    (ht : exec c s = .next t) (hs : I s) : I t := by
  obtain ⟨u, hu, hsame⟩ := exec_same c s
  obtain rfl : u = t := by rw [hu] at ht; exact Host.Outcome.next.inj ht
  exact h.still hsame hs hc

/-- The pin's levels change, and then the carrier's change has its effect. -/
theorem withPins (q : Pins) (hs : I s) : I { s with pins := q } :=
  h.still (withPins_same s q) hs

/-- What a row does to a state: the running time moves on unless the reset pin is held. -/
theorem clockUnlessReset (τ : Nat) (hs : I s) :
    I (if s.pins.reset then s else s.clock τ) := by
  split
  · exact hs
  · exact h.still (clock_same s τ) hs

theorem execControlTxComplete (τ : Nat) {s t : State}
    (ht : Machine.execControlTxComplete τ s = .next t) (hs : I s) : I t := by
  have hsent := fun {u : State} (hu : I u) => h.still (begin_same u) hu
  unfold Machine.execControlTxComplete at ht
  split at ht
  · exact next_keeps ht hs
  · split at ht
    · exact next_keeps ht (hsent hs)
    · split at ht
      · exact next_keeps ht (h.deviceReset s)
      · exact next_keeps ht (hsent (h.still (clock_same s τ) hs))

theorem execTakeTimedOut (d : Dest) {s t : State}
    (ht : Machine.execTakeTimedOut d s = .next t) (hs : I s) : I t := by
  unfold Machine.execTakeTimedOut at ht
  split at ht
  · exact next_keeps ht hs
  · rename_i p hp
    split at ht
    · rename_i hph
      refine next_keeps ht ?_
      unfold State.event
      split
      · exact hs
      · exact h.still (flushHigh_same _) (h.dispatchDue [d]
          (h.timeOut _ d p hp hph.1 (h.still (clock_same s _) hs)))
    · exact next_keeps ht hs

theorem execOverdueEntry (d : Dest) {s t : State}
    (ht : Machine.execOverdueEntry d s = .next t) (hs : I s) : I t := by
  unfold Machine.execOverdueEntry at ht
  split at ht
  · exact next_keeps ht hs
  · rename_i p hp
    split at ht
    · rename_i hph
      refine next_keeps ht ?_
      unfold State.event
      split
      · exact hs
      · exact h.still (flushHigh_same _)
          (h.advance _ d p _ hp rfl (.inr ⟨hph.1, rfl⟩) (h.still (clock_same s _) hs))
    · exact next_keeps ht hs

theorem execCarrierGain (τ : Nat) {s t : State} (ht : Machine.execCarrierGain τ s = .next t)
    (hs : I s) : I t := by
  unfold Machine.execCarrierGain at ht
  split at ht
  · exact next_keeps ht hs
  · refine next_keeps ht (h.event (fun {s} hs => ?_) τ (h.withPins _ hs))
    split
    · exact h.startSurvey hs
    · exact hs

theorem execCarrierLoss (τ : Nat) {s t : State} (ht : Machine.execCarrierLoss τ s = .next t)
    (hs : I s) : I t := by
  unfold Machine.execCarrierLoss at ht
  split at ht
  · exact next_keeps ht (h.event h.loseCarrier τ
      (h.wires
      { s with pins := { s.pins with carrier := false } } { s.link with line := none } rfl rfl
      (h.withPins _ hs)))
  · exact next_keeps ht hs

/-- Every command keeps the predicate. -/
theorem exec {c : Instr} {s t : State} (ht : Machine.exec c s = .next t) (hs : I s) : I t := by
  cases c with
  | resetPinAssert =>
    change execResetPinAssert s = _ at ht
    unfold execResetPinAssert at ht
    split at ht
    · exact next_keeps ht hs
    · exact next_keeps ht (h.reset s)
  | resetPinRelease =>
    change execResetPinRelease s = _ at ht
    unfold execResetPinRelease at ht
    split at ht
    · exact next_keeps ht (h.releaseReset hs)
    · exact next_keeps ht hs
  | take τ => exact next_keeps ht (h.serve h.serveTake τ _ hs)
  | destSet τ => exact next_keeps ht (h.serve h.serveDestSet τ _ hs)
  | lock τ => exact next_keeps ht (h.serve h.serveLock τ _ hs)
  | unlock τ => exact next_keeps ht (h.serve h.serveUnlock τ _ hs)
  | protect τ => exact next_keeps ht (h.serve h.serveProtect τ _ hs)
  | refSet τ order => exact next_keeps ht (h.serve (h.serveRefSet order) τ _ hs)
  | refEdge τ g order =>
    exact next_keeps ht (h.event (h.edge g order) τ (h.expireBefore τ g order hs))
  | toleranceExpiry g order =>
    change execToleranceExpiry g order s = _ at ht
    unfold execToleranceExpiry at ht
    split at ht
    · exact next_keeps ht (h.event (h.expireTolerance g order) _ hs)
    · exact next_keeps ht hs
  | freewheelBoundary g order =>
    change execFreewheelBoundary g order s = _ at ht
    unfold execFreewheelBoundary at ht
    split at ht
    · exact next_keeps ht (h.event (h.freewheel g order) _ hs)
    · exact next_keeps ht hs
  | overdueEntry d => exact h.execOverdueEntry d ht hs
  | takeTimedOut d => exact h.execTakeTimedOut d ht hs
  | takeFallsDue τ => exact next_keeps ht (h.event (h.dispatchDue _) τ hs)
  | carrierGain τ => exact h.execCarrierGain τ ht hs
  | carrierLoss τ => exact h.execCarrierLoss τ ht hs
  | routeReport τ a b c d e => exact next_keeps ht (h.wholeMessage (h.report _) τ hs)
  | surveyEnd τ a b => exact next_keeps ht (h.wholeMessage (h.endSurvey _ _) τ hs)
  | matrixBadFrame τ bytes => exact next_keeps ht (h.event (h.matrixBytes bytes) τ hs)
  | matrixFrameGapTimeout =>
    change execMatrixFrameGapTimeout s = _ at ht
    unfold execMatrixFrameGapTimeout at ht
    split at ht
    · exact next_keeps ht hs
    · exact next_keeps ht (h.event h.matrixGap _ hs)
  | matrixTxComplete τ =>
    change execMatrixTxComplete τ s = _ at ht
    unfold execMatrixTxComplete at ht
    split at ht
    · exact next_keeps ht hs
    · exact next_keeps ht (h.wires _ _ (Link.begin_pool _) (Link.begin_waiting _)
        (h.clockUnlessReset τ hs))
  | salvoFire τ => exact next_keeps ht (h.serve h.serveSalvoFire τ _ hs)
  | triggerRawChange τ i b =>
    change execTriggerRawChange τ i b s = _ at ht
    unfold execTriggerRawChange at ht
    split at ht
    · exact next_keeps ht hs
    · split at ht
      · exact next_keeps ht (h.still (setTrig_same s i _) hs)
      · exact next_keeps ht (h.event (h.rawChange i b) τ hs)
  | qualifiedEdge i =>
    change execQualifiedEdge i s = _ at ht
    unfold execQualifiedEdge at ht
    split at ht
    · exact next_keeps ht hs
    · exact next_keeps ht (h.event (h.qualify i) _ hs)
  | nameSet τ => exact next_keeps ht (h.serve h.serveNameSet τ _ hs)
  | tileSet τ => exact next_keeps ht (h.serve h.tileSet τ _ hs)
  | wallFreeze τ => exact next_keeps ht (h.serve h.serveWallFreeze τ _ hs)
  | wallThaw τ => exact next_keeps ht (h.serve h.serveWallThaw τ _ hs)
  | wallSet τ => exact next_keeps ht (h.serve h.serveWallSet τ _ hs)
  | wallRecordTxComplete τ w =>
    change execWallRecordTxComplete τ w s = _ at ht
    unfold execWallRecordTxComplete at ht
    split at ht
    · exact next_keeps ht hs
    · exact next_keeps ht (h.wall _ w _ rfl rfl (h.clockUnlessReset τ hs))
  | recStart τ => exact next_keeps ht (h.serve h.serveRecStart τ _ hs)
  | recStop τ => exact next_keeps ht (h.serve h.serveRecStop τ _ hs)
  | cueEnd c =>
    change execCueEnd c s = _ at ht
    unfold execCueEnd at ht
    split at ht
    · exact next_keeps ht (h.event (h.enterRecording c _) _ hs)
    · exact next_keeps ht hs
  | controlTxComplete τ => exact h.execControlTxComplete τ ht hs
  | blockResetLink τ => exact next_keeps ht (h.serveBlock τ _ hs)
  | blockResetSalvos τ => exact next_keeps ht (h.serveBlock τ _ hs)
  | blockResetWalls τ => exact next_keeps ht (h.serveBlock τ _ hs)
  | blockResetRecorders τ => exact next_keeps ht (h.serveBlock τ _ hs)
  | blockResetPanels τ => exact next_keeps ht (h.serveBlock τ _ hs)
  | deviceResetTakesEffect =>
    change execDeviceResetTakesEffect s = _ at ht
    unfold execDeviceResetTakesEffect at ht
    split at ht
    · exact next_keeps ht (h.deviceReset s)
    · exact next_keeps ht hs
  | _ => exact h.execQuiet (by dsimp only [footprint]; decide) ht hs

/-- Every step keeps the predicate. -/
theorem step {s t : State} (ht : Machine.step s = .next t) (hs : I s) : I t := by
  unfold Machine.step at ht
  split at ht
  · exact Host.Outcome.next.inj ht ▸ hs
  · exact h.exec ht (h.quiet s _ (quietParts_same rfl rfl rfl) hs)

end StepLaw

end Sys2Proof.Machine
end

section
/-! How a take ends, and what that leaves of its destination and of the token pool (R59, R61, R62). -/

namespace Sys2Proof.Machine

theorem link_of_same {ps : List Part} {s t : State} (h : SameBut ps s t)
    (hp : Part.link ∉ ps := by decide) : t.link = s.link := h .link hp

/-- The pending take of an entry asks for no token yet: there is none, or it is in HELD. -/
def Entry.idle (e : Entry) : Prop :=
  ∀ p, e.pending = some p → p.phase = .held ∧ p.token = none

theorem endNext_entry_self (s : State) (d : Dest) (r : TakeResult) :
    (s.endNext d r).entry d = { s.entry d with next := none } := by
  unfold State.endNext
  split
  · rename_i hn
    rw [← hn]
  · rw [reportTake_entry, State.setEntry_entry_self]

theorem placeHeld_entry_self (s : State) (d : Dest) (n : NextTake) (pl : Placement) :
    (s.placeHeld d n pl).entry d = { s.entry d with pending := some (heldTake n pl) } := by
  unfold State.placeHeld
  rw [announceDest_entry, State.setEntry_entry_self]
  rfl

/-- A promotion leaves no next take behind it; the take promoted is in HELD, and there is one only while
the link is UP. -/
theorem promote_entry_self (s : State) (d : Dest) :
    (s.promote d).entry d = { s.entry d with next := none }
      ∨ s.link.state = .up ∧ ∃ n pl,
        (s.promote d).entry d = { s.entry d with pending := some (heldTake n pl), next := none } := by
  unfold State.promote
  split
  · rename_i hn
    left
    rw [← hn]
  · split
    · rename_i n _ hup
      right
      exact ⟨hup, n, _, by rw [placeHeld_entry_self, State.setEntry_entry_self]⟩
    · left
      exact endNext_entry_self s d _

/-- What the end of a pending take leaves of its entry: no take, or the next take promoted into HELD. -/
theorem endPending_entry_self {s : State} {d : Dest} {p : Pending} (hp : (s.entry d).pending = some p)
    (r : TakeResult) :
    r = .superseded ∧ (s.endPending d r).entry d = { s.entry d with pending := none }
      ∨ (s.endPending d r).entry d = { s.entry d with pending := none, next := none }
      ∨ s.link.state = .up ∧ ∃ n pl, (s.endPending d r).entry d
        = { s.entry d with pending := some (heldTake n pl), next := none } := by
  unfold State.endPending
  rw [hp]
  dsimp only
  generalize hu : (if p.phase = .waiting
    then (s.setEntry d { s.entry d with pending := none }).dropWaiting d
    else s.setEntry d { s.entry d with pending := none }) = u
  have hue : u.entry d = { s.entry d with pending := none } := by
    rw [← hu]
    split
    · exact State.setEntry_entry_self s d _
    · exact State.setEntry_entry_self s d _
  have hul : u.link.state = s.link.state := by
    rw [← hu]
    split <;> rfl
  generalize hv : (u.announceDest d).reportTake d p.ticket p.tag r p.deferred = v
  have hve : v.entry d = { s.entry d with pending := none } := by
    rw [← hv, reportTake_entry, announceDest_entry, hue]
  have hvl : v.link.state = s.link.state := by
    rw [← hv, link_of_same (reportTake_same _ d p.ticket p.tag r p.deferred),
      link_of_same (announceDest_same u d), hul]
  split
  · exact .inl ⟨‹_›, hve⟩
  · right
    obtain h | ⟨hup, n, pl, h⟩ := promote_entry_self v d
    · left
      rw [h, hve]
    · right
      exact ⟨hvl ▸ hup, n, pl, by rw [h, hve]⟩

/-- Of the link, the end of a take touches only the waiting list, which a waiting take leaves. -/
theorem endPending_link {s : State} {d : Dest} {p : Pending} (hp : (s.entry d).pending = some p)
    (r : TakeResult) :
    (s.endPending d r).link
      = if p.phase = .waiting then { s.link with waiting := s.link.waiting.filter (· != d) }
        else s.link := by
  unfold State.endPending
  rw [hp]
  dsimp only
  have hrep := fun u : State => (link_of_same
    (reportTake_same (u.announceDest d) d p.ticket p.tag r p.deferred)).trans
    (link_of_same (announceDest_same u d))
  split <;> split
  · exact hrep _
  · exact hrep _
  · exact (link_of_same (promote_same _ d)).trans (hrep _)
  · exact (link_of_same (promote_same _ d)).trans (hrep _)

/-- The end of a take leaves its destination idle, with no next take unless a new order supersedes it. -/
theorem endPending_idle {s : State} {d : Dest} {p : Pending} (hp : (s.entry d).pending = some p)
    (r : TakeResult) (hn : r = .superseded → (s.entry d).next = none) :
    ((s.endPending d r).entry d).idle ∧ ((s.endPending d r).entry d).next = none := by
  obtain ⟨hr, h⟩ | h | ⟨-, n, pl, h⟩ := endPending_entry_self hp r
  · exact ⟨by simp [Entry.idle, h], by simp [h, hn hr]⟩
  · exact ⟨by simp [Entry.idle, h], by simp [h]⟩
  · exact ⟨by simp [Entry.idle, h, heldTake], by simp [h]⟩

/-! ### Every take of the map ends (R62) -/

theorem cancelTakes_entry_of_ne (s : State) {d c : Dest} (h : c ≠ d) :
    (s.cancelTakes d).entry c = s.entry c := by
  unfold State.cancelTakes
  rw [endNext_entry_of_ne _ h, endPending_entry_of_ne s h]

theorem cancelTakes_link_state (s : State) (d : Dest) :
    (s.cancelTakes d).link.state = s.link.state := by
  unfold State.cancelTakes
  rw [link_of_same (endNext_same _ d _)]
  cases hp : (s.entry d).pending with
  | none => simp [State.endPending, hp]
  | some p => rw [endPending_link hp]; split <;> rfl

/-- The destination holds no take. -/
def Entry.free (e : Entry) : Prop := e.pending = none ∧ e.next = none

/-- While the link is not UP nothing is promoted, so a destination whose takes are cancelled holds none. -/
theorem cancelTakes_free {s : State} (hl : s.link.state ≠ .up) (d : Dest) :
    ((s.cancelTakes d).entry d).free := by
  unfold State.cancelTakes
  rw [endNext_entry_self]
  refine ⟨?_, rfl⟩
  cases hp : (s.entry d).pending with
  | none => simp [State.endPending, hp]
  | some p =>
    obtain ⟨hr, -⟩ | h | ⟨hup, -⟩ := endPending_entry_self hp .cancelled
    · exact nomatch hr
    · simp [h]
    · exact absurd hup hl

theorem foldl_cancelTakes_free (l : List Dest) (s : State) (hl : s.link.state ≠ .up)
    (h : ∀ d, d ∉ l → (s.entry d).free) (d : Dest) : ((l.foldl State.cancelTakes s).entry d).free := by
  induction l generalizing s with
  | nil => exact h d List.not_mem_nil
  | cons c l ih =>
    refine ih (s.cancelTakes c) (by rwa [cancelTakes_link_state]) fun e he => ?_
    by_cases hec : e = c
    · exact hec ▸ cancelTakes_free hl c
    · rw [cancelTakes_entry_of_ne s hec]
      exact h e (by simp [hec, he])

theorem cancelAll_free {s : State} (hl : s.link.state ≠ .up) (d : Dest) : (s.cancelAll.entry d).free := by
  refine foldl_cancelTakes_free _ s hl (fun e he => ?_) d
  rw [mem_select] at he
  change ¬ ((s.entry e).pending.isSome || (s.entry e).next.isSome) = true at he
  simpa [Entry.free] using he

/-- The departure from UP leaves no take in the map (R72). -/
theorem departUp_free (s : State) (k : LinkCause) (d : Dest) : ((s.departUp k).entry d).free :=
  cancelAll_free (s := s.setLink .down k) (by simp [State.setLink, State.raise]) d

end Sys2Proof.Machine
end

section
/-! Tokens and takes (R75 to R77): the law of O57, and why every command keeps it. -/

namespace Sys2Proof.Machine

/-! ### What the law reads -/

/-- What the token law reads of a pending take: its token, and whether it waits for one or is in flight. -/
def Pending.standing (p : Pending) : Option Token × Bool × Bool :=
  (p.token, p.phase = .waiting, p.phase = .sent ∨ p.phase = .overdue)

/-- Of the destinations in `P`, the takes have the same standing in two states, a next take has come only
behind a take in flight, and the pool is the same; the waiting list may have lost other destinations. -/
structure SameTakes (P : Dest → Prop) (s t : State) : Prop where
  pending : ∀ d, P d →
    (t.entry d).pending.map Pending.standing = (s.entry d).pending.map Pending.standing
  next    : ∀ d, P d → (t.entry d).next ≠ none →
    (s.entry d).next ≠ none ∨ ∃ p, (s.entry d).pending = some p ∧ p.inFlight
  pool    : t.link.pool = s.link.pool
  waiting : t.link.waiting.Sublist s.link.waiting
  kept    : ∀ d, P d → d ∈ s.link.waiting → d ∈ t.link.waiting

/-- A state in which the entries of `P` and the link are as they were. -/
theorem SameTakes.of_entries {P : Dest → Prop} {s t : State} (he : ∀ d, P d → t.entry d = s.entry d)
    (hp : t.link.pool = s.link.pool) (hw : t.link.waiting = s.link.waiting) : SameTakes P s t :=
  ⟨fun d hd => by rw [he d hd], fun d hd h => .inl (he d hd ▸ h), hp, by rw [hw],
    fun d _ h => by rwa [hw]⟩

/-- The token law of the destinations in `P`, as if the others held no take. -/
structure TokenLawOf (P : Dest → Prop) (s : State) : Prop where
  held    : ∀ d p, P d → (s.entry d).pending = some p → (p.token.isSome ↔ p.inFlight)
  inUse   : ∀ d p t, P d → (s.entry d).pending = some p → p.token = some t → s.token t = .inUse
  alone   : ∀ d e p q t, P d → P e → (s.entry d).pending = some p → (s.entry e).pending = some q →
    p.token = some t → q.token = some t → d = e
  owned   : ∀ t, s.token t = .inUse → ∃ d p, P d ∧ (s.entry d).pending = some p ∧ p.token = some t
  waiting : ∀ d, P d →
    (d ∈ s.link.waiting ↔ ∃ p, (s.entry d).pending = some p ∧ p.phase = .waiting)
  once    : s.link.waiting.Nodup
  busy    : s.link.waiting ≠ [] → ∀ t, s.token t ≠ .free
  behind  : ∀ d, P d → (s.entry d).next ≠ none → ∃ p, (s.entry d).pending = some p ∧ p.inFlight

/-- The law of every destination is the token law. -/
theorem tokenLawOf_iff (s : State) : TokenLawOf (fun _ => True) s ↔ TokenLaw s := by
  constructor
  · rintro ⟨held, inUse, alone, owned, waiting, once, busy, behind⟩
    refine ⟨fun d p => held d p trivial, fun d p t => inUse d p t trivial,
      fun d e p q t => alone d e p q t trivial trivial, fun t ht => ?_, fun d => waiting d trivial, once,
      busy, fun d => behind d trivial⟩
    obtain ⟨d, p, -, h⟩ := owned t ht
    exact ⟨d, p, h⟩
  · rintro ⟨held, inUse, alone, owned, waiting, once, busy, behind⟩
    refine ⟨fun d p _ => held d p, fun d p t _ => inUse d p t, fun d e p q t _ _ => alone d e p q t,
      fun t ht => ?_, fun d _ => waiting d, once, busy, fun d _ => behind d⟩
    obtain ⟨d, p, h⟩ := owned t ht
    exact ⟨d, p, trivial, h⟩

/-- With no take in the map, no token in use and nobody waiting, the law holds. -/
theorem tokenLaw_of_free {s : State} (he : ∀ d, (s.entry d).free) (hp : ∀ t, s.token t = .free)
    (hw : s.link.waiting = []) : TokenLaw s where
  held d p h := by simp [(he d).1] at h
  inUse d p t h := by simp [(he d).1] at h
  alone d e p q t h := by simp [(he d).1] at h
  owned t h := by simp [hp t] at h
  waiting d := by simp [(he d).1, hw]
  once := by simp [hw]
  busy h := absurd hw h
  behind d h := absurd (he d).2 h

/-! ### Takes of the same standing -/

theorem standing_token {p q : Pending} (h : q.standing = p.standing) : q.token = p.token :=
  (Prod.ext_iff.1 h).1

theorem standing_waiting {p q : Pending} (h : q.standing = p.standing) :
    q.phase = .waiting ↔ p.phase = .waiting := by
  have h1 := (Prod.ext_iff.1 (Prod.ext_iff.1 h).2).1
  simpa only [Pending.standing, decide_eq_decide] using h1

theorem standing_inFlight {p q : Pending} (h : q.standing = p.standing) :
    q.inFlight ↔ p.inFlight := by
  have h1 := (Prod.ext_iff.1 (Prod.ext_iff.1 h).2).2
  simpa only [Pending.standing, Pending.inFlight, decide_eq_decide] using h1

/-- A pending take of the later state was there before, with the same standing. -/
theorem SameTakes.before {P : Dest → Prop} {s t : State} (h : SameTakes P s t) {d : Dest} (hd : P d)
    {q : Pending} (hq : (t.entry d).pending = some q) :
    ∃ p, (s.entry d).pending = some p ∧ q.standing = p.standing := by
  have := h.pending d hd
  rw [hq] at this
  obtain ⟨p, hp, he⟩ := Option.map_eq_some_iff.1 this.symm
  exact ⟨p, hp, he.symm⟩

theorem SameTakes.after {P : Dest → Prop} {s t : State} (h : SameTakes P s t) {d : Dest} (hd : P d)
    {p : Pending} (hp : (s.entry d).pending = some p) :
    ∃ q, (t.entry d).pending = some q ∧ q.standing = p.standing := by
  have := h.pending d hd
  rw [hp] at this
  exact Option.map_eq_some_iff.1 this

theorem SameTakes.token {P : Dest → Prop} {s t : State} (h : SameTakes P s t) (k : Token) :
    t.token k = s.token k := by
  simp [State.token, h.pool]

theorem TokenLawOf.of_same {P : Dest → Prop} {s t : State} (hs : TokenLawOf P s)
    (h : SameTakes P s t) : TokenLawOf P t where
  held d q hd hq := by
    obtain ⟨p, hp, he⟩ := h.before hd hq
    rw [standing_token he, standing_inFlight he]
    exact hs.held d p hd hp
  inUse d q k hd hq hk := by
    obtain ⟨p, hp, he⟩ := h.before hd hq
    rw [h.token]
    exact hs.inUse d p k hd hp (standing_token he ▸ hk)
  alone d e q1 q2 k hd he hq1 hq2 hk1 hk2 := by
    obtain ⟨p1, hp1, he1⟩ := h.before hd hq1
    obtain ⟨p2, hp2, he2⟩ := h.before he hq2
    exact hs.alone d e p1 p2 k hd he hp1 hp2 (standing_token he1 ▸ hk1) (standing_token he2 ▸ hk2)
  owned k hk := by
    obtain ⟨d, p, hd, hp, hpk⟩ := hs.owned k (h.token k ▸ hk)
    obtain ⟨q, hq, he⟩ := h.after hd hp
    exact ⟨d, q, hd, hq, (standing_token he).trans hpk⟩
  waiting d hd := by
    constructor
    · intro hm
      obtain ⟨p, hp, hph⟩ := (hs.waiting d hd).1 (h.waiting.subset hm)
      obtain ⟨q, hq, he⟩ := h.after hd hp
      exact ⟨q, hq, (standing_waiting he).2 hph⟩
    · rintro ⟨q, hq, hph⟩
      obtain ⟨p, hp, he⟩ := h.before hd hq
      exact h.kept d hd ((hs.waiting d hd).2 ⟨p, hp, (standing_waiting he).1 hph⟩)
  once := hs.once.sublist h.waiting
  busy hw k := by
    rw [h.token]
    exact hs.busy (fun e => hw (List.sublist_nil.1 (e ▸ h.waiting))) k
  behind d hd hn := by
    obtain ⟨p, hp, hf⟩ := (h.next d hd hn).elim (hs.behind d hd) id
    obtain ⟨q, hq, he⟩ := h.after hd hp
    exact ⟨q, hq, (standing_inFlight he).2 hf⟩

theorem TokenLaw.of_same {s t : State} (hs : TokenLaw s) (h : SameTakes (fun _ => True) s t) :
    TokenLaw t := (tokenLawOf_iff t).1 (((tokenLawOf_iff s).2 hs).of_same h)

/-! ### A take leaves the account, or joins it -/

/-- A take that is not in flight holds no token, so the others are lawful without it. -/
theorem TokenLawOf.leave {P : Dest → Prop} {s : State} (hs : TokenLawOf P s) {x : Dest}
    (hx : ∀ p, (s.entry x).pending = some p → ¬ p.inFlight) : TokenLawOf (fun d => P d ∧ d ≠ x) s where
  held d p hd := hs.held d p hd.1
  inUse d p t hd := hs.inUse d p t hd.1
  alone d e p q t hd he := hs.alone d e p q t hd.1 he.1
  owned t ht := by
    obtain ⟨d, p, hd, hp, hpt⟩ := hs.owned t ht
    refine ⟨d, p, ⟨hd, fun e => hx p (e ▸ hp) ?_⟩, hp, hpt⟩
    exact (hs.held d p hd hp).1 (by simp [hpt])
  waiting d hd := hs.waiting d hd.1
  once := hs.once
  busy := hs.busy
  behind d hd := hs.behind d hd.1

/-- A take in flight takes its token with it when that token becomes STALE. -/
theorem TokenLawOf.leave_stale {P : Dest → Prop} {s : State} (hs : TokenLawOf P s) {x : Dest} (hx : P x)
    {p : Pending} {t : Token} (hp : (s.entry x).pending = some p) (ht : p.token = some t) (e : Dest) :
    TokenLawOf (fun d => P d ∧ d ≠ x) (s.setToken t (.stale e)) where
  held d q hd := hs.held d q hd.1
  inUse d q k hd hq hk := by
    have hkt : k ≠ t := fun h => hd.2 (hs.alone d x q p t hd.1 hx hq hp (h ▸ hk) ht)
    rw [State.setToken_token_of_ne _ _ _ hkt]
    exact hs.inUse d q k hd.1 hq hk
  alone d e p q t hd he := hs.alone d e p q t hd.1 he.1
  owned k hk := by
    by_cases hkt : k = t
    · simp [hkt] at hk
    · rw [State.setToken_token_of_ne _ _ _ hkt] at hk
      obtain ⟨d, q, hd, hq, hqk⟩ := hs.owned k hk
      refine ⟨d, q, ⟨hd, ?_⟩, hq, hqk⟩
      rintro rfl
      exact hkt (Option.some.inj ((hqk.symm.trans (Option.some.inj (hq.symm.trans hp) ▸ rfl)).trans ht))
  waiting d hd := hs.waiting d hd.1
  once := hs.once
  busy hw k := by
    rw [State.setToken_token]
    split
    · simp
    · exact hs.busy hw k
  behind d hd := hs.behind d hd.1

/-- A destination whose pending take asks for no token, with no next take, joins the others. -/
theorem TokenLawOf.join_idle {P : Dest → Prop} {s : State} {x : Dest}
    (hs : TokenLawOf (fun d => P d ∧ d ≠ x) s) (hi : (s.entry x).idle) (hn : (s.entry x).next = none)
    (hw : x ∉ s.link.waiting) : TokenLawOf P s := by
  have hno : ∀ p t, (s.entry x).pending = some p → p.token ≠ some t := fun p t hp h => by
    simp [(hi p hp).2] at h
  have hne : ∀ d p t, (s.entry d).pending = some p → p.token = some t → d ≠ x :=
    fun d p t hp ht h => hno p t (h ▸ hp) ht
  refine ⟨fun d p hd hp => ?_, fun d p t hd hp ht => hs.inUse d p t ⟨hd, hne d p t hp ht⟩ hp ht,
    fun d e p q t hd he hp hq ht hu =>
      hs.alone d e p q t ⟨hd, hne d p t hp ht⟩ ⟨he, hne e q t hq hu⟩ hp hq ht hu,
    fun t ht => ?_, fun d hd => ?_, hs.once, hs.busy, fun d hd hdn => ?_⟩
  · by_cases hdx : d = x
    · subst hdx
      obtain ⟨hph, htk⟩ := hi p hp
      simp [Pending.inFlight, hph, htk]
    · exact hs.held d p ⟨hd, hdx⟩ hp
  · obtain ⟨d, p, hd, h⟩ := hs.owned t ht
    exact ⟨d, p, hd.1, h⟩
  · by_cases hdx : d = x
    · subst hdx
      refine ⟨fun h => absurd h hw, ?_⟩
      rintro ⟨p, hp, hph⟩
      simp [(hi p hp).1] at hph
    · exact hs.waiting d ⟨hd, hdx⟩
  · exact hs.behind d ⟨hd, fun h => hdn (h ▸ hn)⟩ hdn

/-- A destination whose pending take is in flight joins the others, with a token that was not in use. -/
theorem TokenLawOf.join_flying {P : Dest → Prop} {s : State} {x : Dest} {q : Pending} {t : Token}
    (hx : P x) (hs : TokenLawOf (fun d => P d ∧ d ≠ x) s) (hq : (s.entry x).pending = some q)
    (hf : q.inFlight) (hqt : q.token = some t) (ht : s.token t ≠ .inUse) (hw : x ∉ s.link.waiting) :
    TokenLawOf P (s.setToken t .inUse) := by
  have hnew : ∀ d p k, P d → d ≠ x → (s.entry d).pending = some p → p.token = some k → k ≠ t :=
    fun d p k hd hdx hp hk h => ht (h ▸ hs.inUse d p k ⟨hd, hdx⟩ hp hk)
  refine ⟨fun d p hd hp => ?_, fun d p k hd hp hk => ?_, fun d e p r k hd he hp hr hk hu => ?_,
    fun k hk => ?_, fun d hd => ?_, hs.once, fun hne k => ?_, fun d hd hdn => ?_⟩
  · by_cases hdx : d = x
    · subst hdx
      obtain rfl : q = p := Option.some.inj (hq.symm.trans hp)
      simp [hqt, hf]
    · exact hs.held d p ⟨hd, hdx⟩ hp
  · rw [State.setToken_token]
    split
    · rfl
    · rename_i hkt
      refine hs.inUse d p k ⟨hd, ?_⟩ hp hk
      rintro rfl
      obtain rfl : q = p := Option.some.inj (hq.symm.trans hp)
      exact hkt (Option.some.inj (hk.symm.trans hqt))
  · have htk : ∀ {c o}, (s.entry c).pending = some o → c = x → o.token = some k → k = t := by
      rintro c o ho rfl hok
      obtain rfl : q = o := Option.some.inj (hq.symm.trans ho)
      exact Option.some.inj (hok.symm.trans hqt)
    by_cases hdx : d = x
    · by_cases hex : e = x
      · rw [hdx, hex]
      · exact absurd (htk hp hdx hk) (hnew e r k he hex hr hu)
    · by_cases hex : e = x
      · exact absurd (htk hr hex hu) (hnew d p k hd hdx hp hk)
      · exact hs.alone d e p r k ⟨hd, hdx⟩ ⟨he, hex⟩ hp hr hk hu
  · by_cases hkt : k = t
    · exact ⟨x, q, hx, hq, hkt ▸ hqt⟩
    · rw [State.setToken_token_of_ne _ _ _ hkt] at hk
      obtain ⟨d, p, hd, h⟩ := hs.owned k hk
      exact ⟨d, p, hd.1, h⟩
  · by_cases hdx : d = x
    · subst hdx
      refine ⟨fun h => absurd h hw, ?_⟩
      rintro ⟨p, hp, hph⟩
      obtain rfl : q = p := Option.some.inj (hq.symm.trans hp)
      simp [Pending.inFlight, hph] at hf
    · exact hs.waiting d ⟨hd, hdx⟩
  · rw [State.setToken_token]
    split
    · simp
    · exact hs.busy hne k
  · by_cases hdx : d = x
    · exact ⟨q, hdx ▸ hq, hf⟩
    · exact hs.behind d ⟨hd, hdx⟩ hdn

/-- A destination whose pending take waits joins the others at the end of the waiting list. -/
theorem TokenLawOf.join_waiting {P : Dest → Prop} {s : State} {x : Dest} {q : Pending}
    (hx : P x) (hs : TokenLawOf (fun d => P d ∧ d ≠ x) s) (hq : (s.entry x).pending = some q)
    (hph : q.phase = .waiting) (hqt : q.token = none) (hn : (s.entry x).next = none)
    (ht : ∀ t, s.token t ≠ .free) (hw : x ∉ s.link.waiting) :
    TokenLawOf P { s with link := { s.link with waiting := s.link.waiting ++ [x] } } := by
  have hne : ∀ d p t, (s.entry d).pending = some p → p.token = some t → d ≠ x := by
    rintro d p t hp htk rfl
    obtain rfl : q = p := Option.some.inj (hq.symm.trans hp)
    simp [hqt] at htk
  refine ⟨fun d p hd hp => ?_, fun d p t hd hp ht => hs.inUse d p t ⟨hd, hne d p t hp ht⟩ hp ht,
    fun d e p q t hd he hp hq ht hu =>
      hs.alone d e p q t ⟨hd, hne d p t hp ht⟩ ⟨he, hne e q t hq hu⟩ hp hq ht hu,
    fun t ht => ?_, fun d hd => ?_, ?_, fun _ => ht, fun d hd hdn => ?_⟩
  · by_cases hdx : d = x
    · subst hdx
      obtain rfl : q = p := Option.some.inj (hq.symm.trans hp)
      simp [Pending.inFlight, hph, hqt]
    · exact hs.held d p ⟨hd, hdx⟩ hp
  · obtain ⟨d, p, hd, h⟩ := hs.owned t ht
    exact ⟨d, p, hd.1, h⟩
  · change d ∈ s.link.waiting ++ [x] ↔ _
    by_cases hdx : d = x
    · subst hdx
      simp only [List.mem_append, List.mem_singleton, or_true, true_iff]
      exact ⟨q, hq, hph⟩
    · simp only [List.mem_append, List.mem_singleton, hdx, or_false]
      exact hs.waiting d ⟨hd, hdx⟩
  · exact List.nodup_append.2 ⟨hs.once, List.nodup_singleton x, by
      rintro a ha b hb rfl
      exact hw (List.mem_singleton.1 hb ▸ ha)⟩
  · exact hs.behind d ⟨hd, fun h => hdn (h ▸ hn)⟩ hdn

end Sys2Proof.Machine
end

section
/-! O57: every command keeps the token law. -/

namespace Sys2Proof.Machine

/-! ### The operations on the pool -/

theorem freeToken?_some {s : State} {t : Token} (h : s.freeToken? = some t) : s.token t = .free := by
  have hm := List.mem_of_head? h
  simpa [State.token] using (mem_select _ _ _).1 hm

theorem freeToken?_none {s : State} (h : s.freeToken? = none) (t : Token) : s.token t ≠ .free := by
  have := select_eq_nil.1 (List.head?_eq_none_iff.1 h) t
  simpa [State.token] using this

theorem setToken_setToken (s : State) (t : Token) (a b : TokenState) :
    (s.setToken t a).setToken t b = s.setToken t b := by
  simp [State.setToken]

/-- A token that is freed may have been in any condition. -/
theorem freeToken_setToken (s : State) (t : Token) (a : TokenState) :
    (s.setToken t a).freeToken t = s.freeToken t := by
  unfold State.freeToken
  simp only [State.setToken_waiting, setToken_setToken]

/-- A token that is not in use becomes FREE while nobody waits. -/
theorem TokenLawOf.free {P : Dest → Prop} {s : State} (hs : TokenLawOf P s) {t : Token}
    (ht : s.token t ≠ .inUse) (hw : s.link.waiting = []) : TokenLawOf P (s.setToken t .free) where
  held := hs.held
  inUse d p k hd hp hk := by
    have hkt : k ≠ t := fun h => ht (h ▸ hs.inUse d p k hd hp hk)
    rw [State.setToken_token_of_ne _ _ _ hkt]
    exact hs.inUse d p k hd hp hk
  alone := hs.alone
  owned k hk := by
    rw [State.setToken_token] at hk
    split at hk
    · exact nomatch hk
    · exact hs.owned k hk
  waiting := hs.waiting
  once := hs.once
  busy h := absurd hw h
  behind := hs.behind

/-- A waiting take that is granted a token is in flight with it (R53). -/
theorem grantWaiting_eq {s : State} {d : Dest} {p : Pending} (hp : (s.entry d).pending = some p)
    (t : Token) : ∃ q, q.inFlight ∧ q.token = some t
      ∧ s.grantWaiting d t = (s.setPending d q).sendMatrix (.routeReq d p.source t) := by
  unfold State.grantWaiting
  rw [hp]
  exact ⟨_, .inl rfl, rfl, rfl⟩

/-- A token that is not in use is freed: it goes to the oldest waiting take, or back to FREE (R77). -/
theorem TokenLawOf.freeToken {P : Dest → Prop} {s : State} (hs : TokenLawOf P s) {t : Token}
    (ht : s.token t ≠ .inUse) (hP : ∀ d ∈ s.link.waiting, P d) : TokenLawOf P (s.freeToken t) := by
  unfold State.freeToken
  split
  · exact hs.free ht ‹_›
  · rename_i d ds hw
    have hmem : d ∈ s.link.waiting := by simp [hw]
    have hd : P d := hP d hmem
    obtain ⟨p, hp, hph⟩ := (hs.waiting d hd).1 hmem
    have hds : d ∉ ds := (List.nodup_cons.1 (hw ▸ hs.once)).1
    have hleft := hs.leave (x := d) fun q hq hf => by
      obtain rfl : p = q := Option.some.inj (hp.symm.trans hq)
      simp [Pending.inFlight, hph] at hf
    let v : State := { s with link := { s.link with waiting := ds } }
    change TokenLawOf P ((v.setToken t .inUse).grantWaiting d t)
    obtain ⟨q, hf, hqt, he⟩ := grantWaiting_eq (s := v.setToken t .inUse) hp t
    have hother : ∀ c, P c ∧ c ≠ d → (v.setPending d q).entry c = s.entry c := fun c hc =>
      setPending_entry_of_ne v hc.2 q
    have hsame : SameTakes (fun c => P c ∧ c ≠ d) s (v.setPending d q) :=
      ⟨fun c hc => by rw [hother c hc], fun c hc h => .inl (hother c hc ▸ h), rfl,
        by rw [hw]; exact List.sublist_cons_self d ds, fun c hc h => by
          rw [hw, List.mem_cons] at h
          exact h.resolve_left hc.2⟩
    rw [he]
    exact (TokenLawOf.join_flying hd (hleft.of_same hsame) (by rw [setPending_entry_self]) hf hqt ht
      hds).of_same (.of_entries (fun _ _ => rfl) (sendMatrix_pool _ _) (sendMatrix_waiting _ _))

/-- A take in HELD asks the pool: SENT with a free token, or WAITING (R51, R76). -/
theorem TokenLaw.requestToken {s : State} (hs : TokenLaw s) {d : Dest} {p : Pending}
    (hp : (s.entry d).pending = some p) (hph : p.phase = .held) : TokenLaw (s.requestToken d) := by
  have hnf : ¬ p.inFlight := by simp [Pending.inFlight, hph]
  have htok : p.token = none := by
    have := (hs.held d p hp).not.2 hnf
    simpa using this
  have hnext : (s.entry d).next = none := by
    by_contra hn
    obtain ⟨q, hq, hf⟩ := hs.behind d hn
    exact hnf (Option.some.inj (hp.symm.trans hq) ▸ hf)
  have hwait : d ∉ s.link.waiting := fun hw => by
    obtain ⟨q, hq, hqw⟩ := (hs.waiting d).1 hw
    obtain rfl : p = q := Option.some.inj (hp.symm.trans hq)
    simp [hph] at hqw
  have hleft := ((tokenLawOf_iff s).2 hs).leave (x := d) fun q hq =>
    Option.some.inj (hp.symm.trans hq) ▸ hnf
  have hset := fun q => hleft.of_same (t := s.setPending d q)
    (.of_entries (fun c hc => setPending_entry_of_ne s hc.2 q) rfl rfl)
  rw [← tokenLawOf_iff]
  unfold State.requestToken
  rw [hp]
  dsimp only
  split
  · rename_i t ht
    refine (TokenLawOf.join_flying trivial (hset _) (by rw [setPending_entry_self]) ?_ ?_ (t := t) ?_
      hwait).of_same (.of_entries (fun _ _ => rfl) (sendMatrix_pool _ _) (sendMatrix_waiting _ _))
    · exact .inl rfl
    · rfl
    · rw [show (s.setPending d _).token t = .free from freeToken?_some ht]
      exact nofun
  · rename_i ht
    exact TokenLawOf.join_waiting (q := { p with phase := .waiting }) trivial (hset _) (by rw [setPending_entry_self]) rfl htok
      (by rw [setPending_entry_self]; exact hnext) (freeToken?_none ht) hwait

/-! ### The end of a take, and its arrival -/

theorem endPending_others (P : Dest → Prop) (s : State) (d : Dest) (r : TakeResult) :
    SameTakes (fun c => P c ∧ c ≠ d) s (s.endPending d r) := by
  cases hp : (s.entry d).pending with
  | none =>
    have h : s.endPending d r = s := by simp [State.endPending, hp]
    rw [h]
    exact .of_entries (fun _ _ => rfl) rfl rfl
  | some p =>
    have hl := endPending_link hp r
    refine ⟨fun c hc => by rw [endPending_entry_of_ne s hc.2], fun c hc h => .inl ?_, ?_, ?_,
      fun c hc h => ?_⟩
    · rwa [endPending_entry_of_ne s hc.2] at h
    · rw [hl]; split <;> rfl
    · rw [hl]
      split
      · exact List.filter_sublist
      · exact List.Sublist.refl _
    · rw [hl]
      split
      · exact List.mem_filter.2 ⟨h, by simpa using hc.2⟩
      · exact h

/-- A take that the others are lawful without ends (R59). -/
theorem TokenLawOf.endPending {P : Dest → Prop} {s : State} {d : Dest} {p : Pending}
    (hs : TokenLawOf (fun c => P c ∧ c ≠ d) s) (hp : (s.entry d).pending = some p) (r : TakeResult)
    (hn : r = .superseded → (s.entry d).next = none)
    (hw : p.phase ≠ .waiting → d ∉ s.link.waiting) : TokenLawOf P (s.endPending d r) := by
  obtain ⟨hidle, hnext⟩ := endPending_idle hp r hn
  refine (hs.of_same (endPending_others P s d r)).join_idle hidle hnext ?_
  rw [endPending_link hp]
  split
  · simp [List.mem_filter]
  · exact hw ‹_›

/-- A take is placed on a destination that the others are lawful without. -/
theorem TokenLawOf.placeHeld {P : Dest → Prop} {s : State} {d : Dest}
    (hs : TokenLawOf (fun c => P c ∧ c ≠ d) s) (n : NextTake) (pl : Placement)
    (hn : (s.entry d).next = none) (hw : d ∉ s.link.waiting) : TokenLawOf P (s.placeHeld d n pl) := by
  have hl : (s.placeHeld d n pl).link = s.link := link_of_same (placeHeld_same s d n pl)
  refine (hs.of_same (t := s.placeHeld d n pl) (.of_entries
    (fun c hc => placeHeld_entry_of_ne s hc.2 n pl) (by rw [hl]) (by rw [hl]))).join_idle ?_ ?_ ?_
  · rw [placeHeld_entry_self]
    simp [Entry.idle, heldTake]
  · rw [placeHeld_entry_self]
    exact hn
  · rwa [hl]

/-- A destination that waits for no token is not on the waiting list. -/
theorem TokenLaw.not_mem_waiting {s : State} (hs : TokenLaw s) {d : Dest}
    (h : ∀ p, (s.entry d).pending = some p → p.phase ≠ .waiting) : d ∉ s.link.waiting := fun hw => by
  obtain ⟨p, hp, hph⟩ := (hs.waiting d).1 hw
  exact h p hp hph

/-- Behind a take that is not in flight stands no next take. -/
theorem TokenLaw.no_next {s : State} (hs : TokenLaw s) {d : Dest}
    (h : ∀ p, (s.entry d).pending = some p → ¬ p.inFlight) : (s.entry d).next = none := by
  by_contra hn
  obtain ⟨p, hp, hf⟩ := hs.behind d hn
  exact h p hp hf

theorem TokenLaw.arrive {s : State} (hs : TokenLaw s) (d : Dest) (n : NextTake) (pl : Placement) :
    TokenLaw (s.arrive d n pl).2 := by
  have hall := (tokenLawOf_iff s).2 hs
  unfold State.arrive
  split
  · rename_i hp
    have hnone : ∀ (p : Pending) {Q : Prop}, (s.entry d).pending = some p → Q := fun p _ h => by
      simp [hp] at h
    exact (tokenLawOf_iff _).1 ((hall.leave fun p h => hnone p h).placeHeld n pl
      (hs.no_next fun p h => hnone p h) (hs.not_mem_waiting fun p h => hnone p h))
  · rename_i p hp
    split
    · rename_i hph
      have hnf : ∀ q, (s.entry d).pending = some q → ¬ q.inFlight := fun q hq hf => by
        obtain rfl : p = q := Option.some.inj (hp.symm.trans hq)
        obtain h | h := hph <;> simp [Pending.inFlight, h] at hf
      have hnext := hs.no_next hnf
      refine (tokenLawOf_iff _).1 (TokenLawOf.placeHeld
        ((hall.leave hnf).of_same (endPending_others _ s d .superseded)) n pl
        (endPending_idle hp .superseded fun _ => hnext).2 ?_)
      rw [endPending_link hp]
      split
      · simp [List.mem_filter]
      · exact hs.not_mem_waiting fun q hq => Option.some.inj (hp.symm.trans hq) ▸ ‹_›
    · rename_i hph
      have hf : p.inFlight := by
        rw [not_or] at hph
        cases h : p.phase <;> simp_all [Pending.inFlight]
      have hl : (s.endNext d .superseded).link = s.link := link_of_same (endNext_same s d _)
      refine hs.of_same ⟨fun c _ => ?_, fun c _ hc => ?_, by simp [hl], by simp [hl],
        fun c _ h => by simpa [hl] using h⟩
      · rw [State.setEntry_entry]
        split
        · subst c
          rw [endNext_entry_self]
        · rw [endNext_entry_of_ne s ‹_›]
      · by_cases hcd : c = d
        · exact .inr ⟨p, hcd ▸ hp, hf⟩
        · rw [State.setEntry_entry_of_ne _ _ _ hcd, endNext_entry_of_ne s hcd] at hc
          exact .inl hc

/-! ### Time-outs and reports -/

theorem setSuspect_entry (s : State) (d : Dest) (v : Bool) (c : Dest) :
    (s.setSuspect d v).entry c = if c = d then { s.entry d with suspect := v } else s.entry c := by
  unfold State.setSuspect
  split
  · rename_i h
    split
    · subst c
      rw [← h]
    · rfl
  · rw [announceDest_entry, State.setEntry_entry]

theorem writeSource_entry (s : State) (d : Dest) (x : Option Source) (k : ChangeCause) (c : Dest) :
    (s.writeSource d x k).entry c = if c = d then { s.entry d with source := x } else s.entry c := by
  unfold State.writeSource
  dsimp only
  split
  · rename_i h
    split
    · subst c
      rw [← h]
    · rfl
  · rw [entry_of_same (sourceChanged_same _ d k _ x), State.setEntry_entry]

/-- A change of other fields of entries, of the walls, of tally and of the recorders. -/
theorem SameTakes.of_takes {P : Dest → Prop} {s t : State}
    (he : ∀ d, (t.entry d).pending = (s.entry d).pending ∧ (t.entry d).next = (s.entry d).next)
    (hl : t.link = s.link) : SameTakes P s t :=
  ⟨fun d _ => by rw [(he d).1], fun d _ h => .inl ((he d).2 ▸ h), by rw [hl], by rw [hl],
    fun d _ h => by rwa [hl]⟩

theorem setSuspect_takes (s : State) (d : Dest) (v : Bool) (c : Dest) :
    ((s.setSuspect d v).entry c).pending = (s.entry c).pending
      ∧ ((s.setSuspect d v).entry c).next = (s.entry c).next := by
  rw [setSuspect_entry]
  split
  · subst c; exact ⟨rfl, rfl⟩
  · exact ⟨rfl, rfl⟩

theorem writeSource_takes (s : State) (d : Dest) (x : Option Source) (k : ChangeCause) (c : Dest) :
    ((s.writeSource d x k).entry c).pending = (s.entry c).pending
      ∧ ((s.writeSource d x k).entry c).next = (s.entry c).next := by
  rw [writeSource_entry]
  split
  · subst c; exact ⟨rfl, rfl⟩
  · exact ⟨rfl, rfl⟩

theorem TokenLaw.timeOut {s : State} (hs : TokenLaw s) {d : Dest} {p : Pending}
    (hp : (s.entry d).pending = some p) (hph : p.phase = .overdue) : TokenLaw (s.timeOut d) := by
  obtain ⟨t, ht⟩ := Option.isSome_iff_exists.1 ((hs.held d p hp).2 (.inr hph))
  have hl : (s.setSuspect d true).link = s.link := link_of_same (setSuspect_same s d true)
  have hsus : TokenLawOf (fun _ => True) (s.setSuspect d true) :=
    ((tokenLawOf_iff s).2 hs).of_same (.of_takes (setSuspect_takes s d true) hl)
  have hp1 : ((s.setSuspect d true).entry d).pending = some p := (setSuspect_takes s d true d).1.trans hp
  unfold State.timeOut
  simp only [hp, ht]
  have hlog := logSuspect_same ((s.setSuspect d true).setToken t (.stale d)) d
  have hlink := link_of_same hlog
  refine (tokenLawOf_iff _).1 (((hsus.leave_stale trivial hp1 ht d).of_same (.of_entries
    (fun c _ => entry_of_same hlog (by decide) c) (by rw [hlink]) (by rw [hlink]))).endPending
    (p := p) ?_ .timedOut (fun h => nomatch h) fun _ => ?_)
  · rw [entry_of_same hlog]
    exact hp1
  · rw [hlink, State.setToken_waiting, hl]
    exact hs.not_mem_waiting fun q hq => by
      obtain rfl : p = q := Option.some.inj (hp.symm.trans hq)
      simp [hph]

theorem grantWaiting_entry_of_ne (s : State) {d c : Dest} (h : c ≠ d) (t : Token) :
    (s.grantWaiting d t).entry c = s.entry c := by
  unfold State.grantWaiting
  split
  · rfl
  · exact setPending_entry_of_ne s h _

theorem freeToken_entry (s : State) (t : Token) {d : Dest} (h : d ∉ s.link.waiting) :
    (s.freeToken t).entry d = s.entry d := by
  unfold State.freeToken
  split
  · rfl
  · rename_i c cs hw
    rw [hw, List.mem_cons, not_or] at h
    exact grantWaiting_entry_of_ne _ h.1 t

theorem grantWaiting_waiting (s : State) (d : Dest) (t : Token) :
    (s.grantWaiting d t).link.waiting = s.link.waiting := by
  unfold State.grantWaiting
  split
  · rfl
  · exact sendMatrix_waiting _ _

theorem freeToken_waiting_subset (s : State) (t : Token) {d : Dest}
    (h : d ∈ (s.freeToken t).link.waiting) : d ∈ s.link.waiting := by
  unfold State.freeToken at h
  split at h
  · exact h
  · rename_i c cs hw
    rw [grantWaiting_waiting] at h
    exact hw ▸ List.mem_cons_of_mem c h

/-- A matched report frees the token of the take and ends it (R58): from the freeing on, the others are
lawful without it. -/
theorem TokenLaw.applyMatched {s : State} (hs : TokenLaw s) {d : Dest} {p : Pending} {t : Token}
    (hp : (s.entry d).pending = some p) (ht : p.token = some t) (x : Source) (held : Nat) :
    TokenLaw (s.applyMatched d x t held) := by
  have hf : p.inFlight := (hs.held d p hp).1 (by simp [ht])
  have hw : d ∉ s.link.waiting := hs.not_mem_waiting fun q hq => by
    obtain rfl : p = q := Option.some.inj (hp.symm.trans hq)
    obtain h | h := hf <;> simp [h]
  have hfree : TokenLawOf (fun c => True ∧ c ≠ d) (s.freeToken t) := by
    rw [← freeToken_setToken s t (.stale d)]
    refine (((tokenLawOf_iff s).2 hs).leave_stale trivial hp ht d).freeToken (by simp) fun c hc => ?_
    exact ⟨trivial, fun e => hw (e ▸ hc)⟩
  unfold State.applyMatched
  rw [hp]
  dsimp only
  generalize hv : (((s.freeToken t).measure p held).writeSource d (some x) .cut).setSuspect d false = v
  have hve : ∀ c, (v.entry c).pending = ((s.freeToken t).entry c).pending
      ∧ (v.entry c).next = ((s.freeToken t).entry c).next := fun c => by
    rw [← hv]
    obtain ⟨h1, h2⟩ := setSuspect_takes
      (((s.freeToken t).measure p held).writeSource d (some x) .cut) d false c
    obtain ⟨h3, h4⟩ := writeSource_takes ((s.freeToken t).measure p held) d (some x) .cut c
    exact ⟨h1.trans h3, h2.trans h4⟩
  have hvl : v.link = (s.freeToken t).link := by
    rw [← hv, link_of_same (setSuspect_same _ d false), link_of_same (writeSource_same _ d _ .cut)]
    rfl
  refine dispatchDue_keeps (fun c hu hu1 => ?_) [d] ((tokenLawOf_iff _).1
    ((hfree.of_same (.of_takes hve hvl)).endPending (p := p) ?_ _ (fun h => ?_) fun _ => ?_))
  · obtain ⟨q, hq, hqh⟩ := hu
    exact hu1.requestToken hq hqh
  · rw [(hve d).1, freeToken_entry s t hw]
    exact hp
  · unfold matchedResult at h
    split at h
    · exact nomatch h
    · split at h <;> exact nomatch h
  · rw [hvl]
    exact fun h => hw (freeToken_waiting_subset s t h)

/-! ### The law of the step -/

theorem writeTile_takes (s : State) (w : WallNo) (t : TileNo) (k : TileKind) (c : Dest) :
    ((s.writeTile w t k).entry c).pending = (s.entry c).pending
      ∧ ((s.writeTile w t k).entry c).next = (s.entry c).next := by
  have hset : ∀ (u : State) (d : Dest) (l : List (WallNo × TileNo)),
      ((u.setEntry d { u.entry d with tiles := l }).entry c).pending = (u.entry c).pending
        ∧ ((u.setEntry d { u.entry d with tiles := l }).entry c).next = (u.entry c).next := by
    intro u d l
    rw [State.setEntry_entry]
    split
    · subst c; exact ⟨rfl, rfl⟩
    · exact ⟨rfl, rfl⟩
  have hun : ∀ (u : State) (k : TileKind), ((u.unbindPair k (w, t)).entry c).pending = (u.entry c).pending
      ∧ ((u.unbindPair k (w, t)).entry c).next = (u.entry c).next := by
    intro u k
    cases k with
    | dest d => exact hset u d _
    | invalid => exact ⟨rfl, rfl⟩
    | fixed x => exact ⟨rfl, rfl⟩
  have hbind : ∀ (u : State) (k : TileKind), ((u.bindPair k (w, t)).entry c).pending = (u.entry c).pending
      ∧ ((u.bindPair k (w, t)).entry c).next = (u.entry c).next := by
    intro u k
    cases k with
    | dest d => exact hset u d _
    | invalid => exact ⟨rfl, rfl⟩
    | fixed x => exact ⟨rfl, rfl⟩
  unfold State.writeTile
  dsimp only
  rw [State.setWall_entry]
  split
  · exact ⟨rfl, rfl⟩
  · exact ⟨(hbind _ k).1.trans (hun s _).1, (hbind _ k).2.trans (hun s _).2⟩

theorem mapEntries_entry (s : State) (f : Entry → Entry) (d : Dest) :
    State.entry { s with map := { s.map with entries := s.map.entries.map f } } d = f (s.entry d) := by
  simp [State.entry]

theorem tokenLaw_keeps_of_blind {ps : List Part} {s t : State} (hs : TokenLaw s) (h : SameBut ps s t)
    (hm : Part.map ∉ ps := by decide) (hl : Part.link ∉ ps := by decide) : TokenLaw t :=
  hs.of_same (.of_takes (fun d => by rw [entry_of_same h hm]; exact ⟨rfl, rfl⟩) (h .link hl))

theorem tokenLaw_stepLaw : StepLaw TokenLaw where
  quiet s t h hs := tokenLaw_keeps_of_blind hs h
  wires s l hp hw hs := hs.of_same (.of_entries (fun _ _ => rfl) hp hw)
  counts s a b hs := hs.of_same (.of_entries (fun _ _ => rfl) rfl rfl)
  entry s d e hp hn _ hs := by
    refine hs.of_same (.of_takes (fun c => ?_) rfl)
    rw [State.setEntry_entry]
    split
    · subst c; exact ⟨hp, hn⟩
    · exact ⟨rfl, rfl⟩
  wall s w r _ _ hs := tokenLaw_keeps_of_blind hs (setWall_same s w r)
  showDest {s} d hs := tokenLaw_keeps_of_blind hs (announceDest_same s d)
  showSource {s} x hs := tokenLaw_keeps_of_blind hs (announceSource_same s x)
  thaw {s} w hs := tokenLaw_keeps_of_blind hs (queueTiles_same s _)
  tileSet {s} o hs := by
    unfold serveTileSet
    split
    · split
      · exact hs
      · exact tokenLaw_keeps_of_blind (hs.of_same (.of_takes (writeTile_takes s _ _ _)
          (link_of_same (writeTile_same s _ _ _)))) (queueTile_same _ _)
    · exact hs
  drain {s} f w hs := tokenLaw_keeps_of_blind hs (drainWall_same s f w)
  clearWall {s} w hs := hs.of_same (.of_takes (fun d => by
    unfold State.resetWall State.dropWallPairs
    rw [mapEntries_entry]
    exact ⟨rfl, rfl⟩) rfl)
  arrive {_} d n pl hs := hs.arrive d n pl
  request s d p hp hph hs := hs.requestToken hp hph
  advance s d p q hp ht hph hs := by
    have hst : q.standing = p.standing := by
      simp only [Pending.standing, ht, Prod.mk.injEq, true_and]
      obtain h | ⟨h1, h2⟩ := hph
      · simp [h]
      · simp [h1, h2]
    refine hs.of_same ⟨fun c _ => ?_, fun c _ h => .inl ?_, rfl, List.Sublist.refl _, fun _ _ h => h⟩
    · by_cases hcd : c = d
      · subst hcd
        simp [hp, hst]
      · rw [setPending_entry_of_ne s hcd]
    · by_cases hcd : c = d
      · subst hcd
        simpa using h
      · rwa [setPending_entry_of_ne s hcd] at h
  timeOut s d p hp hph hs := hs.timeOut hp hph
  matched s d x t held p hp ht hs := hs.applyMatched hp ht x held
  stray s t d ht hs := (tokenLawOf_iff _).1
    (((tokenLawOf_iff s).2 hs).freeToken (by simp [ht]) fun _ _ => trivial)
  depart {s} k hs := tokenLaw_of_free (departUp_free s k) (fun t => by
    simp [State.departUp, State.clearPool, State.token]) rfl
  untag {s} hs := by
    refine hs.of_same ⟨fun d _ => ?_, fun d _ h => .inl ?_, rfl, List.Sublist.refl _, fun _ _ h => h⟩
    · have he : s.resetSalvos.entry d = (s.entry d).untagged := mapEntries_entry s _ d
      rw [he]
      cases hp : (s.entry d).pending <;> simp [Entry.untagged, hp, Pending.standing]
    · have he : s.resetSalvos.entry d = (s.entry d).untagged := mapEntries_entry s _ d
      rw [he] at h
      simpa [Entry.untagged] using h
  reset s := tokenLaw_of_free (fun d => by simp [State.assertReset, State.entry, State.reset,
    CrosspointMap.reset, Entry.free, Entry.reset]) (fun t => by
    simp [State.assertReset, State.token, Link.reset]) rfl

/-- Settles O57: every operation that reaches takes or tokens keeps the law, so every step does. -/
theorem everyStepKeepsTheTokenLaw : Obligations.EveryStepKeepsTheTokenLaw := by
  unfold Obligations.EveryStepKeepsTheTokenLaw
  exact fun s t hs ht => tokenLaw_stepLaw.step ht hs

end Sys2Proof.Machine
end

section
/-! O59: the fan-out lists and the update queues (R7, R119, R123, R124), and why every command keeps
them. -/

namespace Sys2Proof.Machine

/-! ### One wall -/

/-- The descriptor of one tile of a wall. -/
def Wall.tileAt (r : Wall) (i : TileNo) : Tile := r.tiles[i]

/-- The wall with one descriptor written. -/
def Wall.setTile (r : Wall) (t : TileNo) (d : Tile) : Wall :=
  { r with tiles := r.tiles.set t.1 d t.2 }

theorem State.tile_eq (s : State) (w : WallNo) (i : TileNo) : s.tile w i = (s.wall w).tileAt i := rfl

theorem Wall.tileAt_setTile (r : Wall) (t : TileNo) (d : Tile) (i : TileNo) :
    (r.setTile t d).tileAt i = if i = t then d else r.tileAt i := by
  unfold Wall.tileAt Wall.setTile
  split
  · subst i; simp
  · have hne : t.1 ≠ i.1 := fun e => ‹¬ i = t› (Fin.ext e).symm
    simp [hne]

/-- The update queue of one wall: each tile once, only tiles that are valid or have blank pending, and
every tile with blank pending INVALID and queued. -/
structure Wall.Lawful (r : Wall) : Prop where
  once  : r.queue.Nodup
  due   : ∀ i, i ∈ r.queue → (r.tileAt i).kind ≠ .invalid ∨ (r.tileAt i).blank = true
  blank : ∀ i, (r.tileAt i).blank = true → (r.tileAt i).kind = .invalid ∧ i ∈ r.queue

theorem updateQueueLaw_iff (s : State) : UpdateQueueLaw s ↔ ∀ w, (s.wall w).Lawful :=
  ⟨fun h w => ⟨h.once w, h.due w, h.blank w⟩,
    fun h => ⟨fun w => (h w).once, fun w => (h w).due, fun w => (h w).blank⟩⟩

@[simp] theorem Wall.enqueue_tileAt (r : Wall) (t i : TileNo) : (r.enqueue t).tileAt i = r.tileAt i := by
  unfold Wall.enqueue; split <;> rfl

theorem Wall.mem_enqueue (r : Wall) (t i : TileNo) :
    i ∈ (r.enqueue t).queue ↔ i ∈ r.queue ∨ i = t := by
  unfold Wall.enqueue
  split
  · constructor
    · exact .inl
    · rintro (h | rfl)
      · exact h
      · assumption
  · simp

theorem Wall.enqueue_nodup {r : Wall} (h : r.queue.Nodup) (t : TileNo) : (r.enqueue t).queue.Nodup := by
  unfold Wall.enqueue
  split
  · exact h
  · refine List.nodup_append.2 ⟨h, List.nodup_singleton t, ?_⟩
    rintro a ha b hb rfl
    exact ‹t ∉ r.queue› (List.mem_singleton.1 hb ▸ ha)

/-- A tile that is to be sent joins the queue. -/
theorem Wall.Lawful.enqueue {r : Wall} (h : r.Lawful) {t : TileNo}
    (ht : (r.tileAt t).kind ≠ .invalid ∨ (r.tileAt t).blank = true) : (r.enqueue t).Lawful where
  once := Wall.enqueue_nodup h.once t
  due i hi := by
    rw [Wall.enqueue_tileAt]
    obtain hi | rfl := (r.mem_enqueue t i).1 hi
    · exact h.due i hi
    · exact ht
  blank i hi := by
    rw [Wall.enqueue_tileAt] at hi ⊢
    obtain ⟨hk, hq⟩ := h.blank i hi
    exact ⟨hk, (r.mem_enqueue t i).2 (.inl hq)⟩

/-- The blank pending flag of a new descriptor is set exactly for INVALID (R123). -/
theorem not_valid_iff (k : TileKind) : (!k.valid) = true ↔ k = .invalid := by
  cases k <;> simp [TileKind.valid]

/-- A descriptor is written and its tile queued (R122, R123). -/
theorem Wall.Lawful.write {r : Wall} (h : r.Lawful) (t : TileNo) (k : TileKind) :
    ((r.setTile t { kind := k, blank := !k.valid }).enqueue t).Lawful := by
  refine ⟨Wall.enqueue_nodup (r := r.setTile t _) h.once t, fun i hi => ?_, fun i hi => ?_⟩
  · rw [Wall.enqueue_tileAt, Wall.tileAt_setTile]
    split
    · exact (em (k = .invalid)).symm.imp id (not_valid_iff k).2
    · rename_i hit
      exact h.due i (((Wall.mem_enqueue _ t i).1 hi).resolve_right hit)
  · rw [Wall.enqueue_tileAt, Wall.tileAt_setTile] at hi ⊢
    rw [Wall.mem_enqueue]
    split at hi
    · rename_i hit
      rw [if_pos hit]
      exact ⟨(not_valid_iff k).1 hi, .inr hit⟩
    · rename_i hit
      rw [if_neg hit]
      obtain ⟨hk, hq⟩ := h.blank i hi
      exact ⟨hk, .inl hq⟩

/-! ### The drain (R127) -/

/-- A tile that has been sent: with no blank pending any more where it is INVALID. -/
def Tile.sent (d : Tile) : Tile := if d.kind.valid then d else { d with blank := false }

@[simp] theorem Tile.sent_kind (d : Tile) : d.sent.kind = d.kind := by
  unfold Tile.sent; split <;> rfl

@[simp] theorem Tile.sent_sent (d : Tile) : d.sent.sent = d.sent := by
  unfold Tile.sent; split <;> simp [*]

theorem Tile.sent_blank (d : Tile) :
    d.sent.blank = true ↔ d.kind.valid = true ∧ d.blank = true := by
  unfold Tile.sent; split <;> simp [*]

@[simp] theorem Wall.sent_queue (r : Wall) (t : TileNo) : (r.sent t).queue = r.queue := by
  unfold Wall.sent; dsimp only; split <;> rfl

theorem Wall.tileAt_sent (r : Wall) (t i : TileNo) :
    (r.sent t).tileAt i = if i = t then (r.tileAt i).sent else r.tileAt i := by
  have h : r.sent t = if (r.tileAt t).kind.valid then r
      else r.setTile t { r.tileAt t with blank := false } := rfl
  rw [h]
  unfold Tile.sent
  by_cases hv : (r.tileAt t).kind.valid
  · rw [if_pos hv]
    split
    · subst i; rw [if_pos hv]
    · rfl
  · rw [if_neg hv, Wall.tileAt_setTile]
    split
    · subst i; rw [if_neg hv]
    · rfl

@[simp] theorem Wall.foldl_sent_queue (l : List TileNo) (r : Wall) :
    (l.foldl Wall.sent r).queue = r.queue := by
  induction l generalizing r with
  | nil => rfl
  | cons t l ih => rw [List.foldl_cons, ih, Wall.sent_queue]

/-- The tiles taken have been sent; no other descriptor changes. -/
theorem Wall.tileAt_foldl_sent (l : List TileNo) (r : Wall) (i : TileNo) :
    (l.foldl Wall.sent r).tileAt i = if i ∈ l then (r.tileAt i).sent else r.tileAt i := by
  induction l generalizing r with
  | nil => simp
  | cons t l ih =>
    rw [List.foldl_cons, ih, Wall.tileAt_sent]
    by_cases hit : i = t <;> by_cases hil : i ∈ l <;> simp [hit, hil]

/-- The oldest tiles are taken off the queue, and the INVALID ones among them have yielded their BLANK. -/
theorem Wall.Lawful.drain {r : Wall} (h : r.Lawful) (n : Nat) (l : List WallRecord) :
    ((r.queue.take n).foldl Wall.sent { r with queue := r.queue.drop n, line := l }).Lawful := by
  have hsplit : ∀ i, i ∈ r.queue ↔ i ∈ r.queue.take n ∨ i ∈ r.queue.drop n := fun i => by
    rw [← List.mem_append, List.take_append_drop]
  have hat : ∀ i, Wall.tileAt { r with queue := r.queue.drop n, line := l } i = r.tileAt i := fun _ => rfl
  have hdisj : ∀ i, i ∈ r.queue.drop n → i ∉ r.queue.take n := fun i hd ht =>
    (List.disjoint_take_drop h.once le_rfl) ht hd
  refine ⟨?_, fun i hi => ?_, fun i hi => ?_⟩
  · rw [Wall.foldl_sent_queue]
    exact h.once.sublist (List.drop_sublist n _)
  · rw [Wall.foldl_sent_queue] at hi
    rw [Wall.tileAt_foldl_sent, if_neg (hdisj i hi)]
    exact h.due i ((hsplit i).2 (.inr hi))
  · rw [Wall.tileAt_foldl_sent, hat] at hi ⊢
    rw [Wall.foldl_sent_queue]
    split at hi
    · obtain ⟨hv, hb⟩ := (Tile.sent_blank _).1 hi
      rw [(h.blank i hb).1] at hv
      exact nomatch hv
    · rename_i hit
      rw [if_neg hit]
      obtain ⟨hk, hq⟩ := h.blank i hi
      exact ⟨hk, ((hsplit i).1 hq).resolve_left hit⟩

/-! ### A pair in an ordered list (R7) -/

theorem pairBefore_trans {p q r : WallNo × TileNo} (h : pairBefore p q = true)
    (k : pairBefore q r = true) : pairBefore p r = true := by
  simp only [pairBefore, Bool.or_eq_true, Bool.and_eq_true, decide_eq_true_eq, beq_iff_eq, Fin.ext_iff]
    at *
  omega

theorem pairBefore_of_not {p q : WallNo × TileNo} (hne : p ≠ q) (h : ¬ pairBefore p q = true) :
    pairBefore q p = true := by
  have hne' : ¬ (p.1.1 = q.1.1 ∧ p.2.1 = q.2.1) := fun e =>
    hne (Prod.ext (Fin.ext e.1) (Fin.ext e.2))
  simp only [pairBefore, Bool.or_eq_true, Bool.and_eq_true, decide_eq_true_eq, beq_iff_eq, Fin.ext_iff]
    at *
  omega

theorem mem_insertPair (p x : WallNo × TileNo) (l : List (WallNo × TileNo)) :
    x ∈ insertPair p l ↔ x = p ∨ x ∈ l := by
  induction l with
  | nil => simp [insertPair]
  | cons q l ih =>
    unfold insertPair
    split
    · rename_i h
      simp [h]
    · split
      · simp
      · simp only [List.mem_cons, ih]
        exact or_left_comm

theorem length_insertPair_le (p : WallNo × TileNo) (l : List (WallNo × TileNo)) :
    (insertPair p l).length ≤ l.length + 1 := by
  induction l with
  | nil => simp [insertPair]
  | cons q l ih =>
    unfold insertPair
    split
    · simp
    · split
      · simp
      · simpa using ih

theorem pairwise_insertPair (p : WallNo × TileNo) {l : List (WallNo × TileNo)}
    (h : l.Pairwise (fun a b => pairBefore a b = true)) :
    (insertPair p l).Pairwise (fun a b => pairBefore a b = true) := by
  induction l with
  | nil => simp [insertPair]
  | cons q l ih =>
    obtain ⟨hq, hl⟩ := List.pairwise_cons.1 h
    unfold insertPair
    split
    · exact h
    · rename_i hpq
      split
      · rename_i hb
        refine List.pairwise_cons.2 ⟨fun x hx => ?_, h⟩
        obtain rfl | hx := List.mem_cons.1 hx
        · exact hb
        · exact pairBefore_trans hb (hq x hx)
      · rename_i hb
        refine List.pairwise_cons.2 ⟨fun x hx => ?_, ih hl⟩
        obtain rfl | hx := (mem_insertPair p x l).1 hx
        · exact pairBefore_of_not hpq hb
        · exact hq x hx

/-! ### The law of the walls -/

/-- The fan-out law, and with it, where the update queues were lawful (`u`), their law. -/
def WallLaw (u : Prop) (s : State) : Prop := FanoutLaw s ∧ (u → UpdateQueueLaw s)

theorem FanoutLaw.of_lists {s t : State} (h : FanoutLaw s)
    (hl : ∀ d, (t.entry d).tiles = (s.entry d).tiles)
    (hk : ∀ w i, (t.tile w i).kind = (s.tile w i).kind) : FanoutLaw t :=
  ⟨fun d => hl d ▸ h.ordered d, fun d => hl d ▸ h.length d, fun d w i => by
    rw [hl, hk]
    exact h.bound d w i⟩

theorem WallLaw.of_lists {u : Prop} {s t : State} (h : WallLaw u s)
    (hl : ∀ d, (t.entry d).tiles = (s.entry d).tiles) (hw : t.walls = s.walls) : WallLaw u t := by
  have hwall : ∀ w, t.wall w = s.wall w := fun w => by simp [State.wall, hw]
  refine ⟨h.1.of_lists hl fun w i => by simp [State.tile, hwall], fun hu => ?_⟩
  rw [updateQueueLaw_iff]
  intro w
  rw [hwall]
  exact (updateQueueLaw_iff s).1 (h.2 hu) w

/-- One wall changes, and keeps the kinds of its tiles. -/
theorem WallLaw.setWall {u : Prop} {s : State} (h : WallLaw u s) {w : WallNo} {r : Wall}
    (hk : ∀ i, (r.tileAt i).kind = ((s.wall w).tileAt i).kind)
    (hr : (s.wall w).Lawful → r.Lawful) : WallLaw u (s.setWall w r) := by
  refine ⟨h.1.of_lists (fun _ => rfl) fun v i => ?_, fun hu => ?_⟩
  · rw [State.tile_eq, State.tile_eq, State.setWall_wall]
    split
    · subst v; exact hk i
    · rfl
  · rw [updateQueueLaw_iff]
    intro v
    rw [State.setWall_wall]
    have hs := (updateQueueLaw_iff s).1 (h.2 hu)
    split
    · exact hr (hs w)
    · exact hs v

theorem WallLaw.blind {u : Prop} {ps : List Part} {s t : State} (h : WallLaw u s) (hst : SameBut ps s t)
    (hm : Part.map ∉ ps := by decide) (hw : Part.walls ∉ ps := by decide) : WallLaw u t :=
  h.of_lists (fun d => by rw [entry_of_same hst hm]) (hst .walls hw)

theorem tile_queueTile (s : State) (p : WallNo × TileNo) (w : WallNo) (i : TileNo) :
    (s.queueTile p).tile w i = s.tile w i := by
  rw [State.tile_eq, State.tile_eq, wall_queueTile]
  split
  · rw [Wall.enqueue_tileAt]
  · rfl

/-- Valid tiles are queued. -/
theorem WallLaw.queueTiles {u : Prop} {s : State} (h : WallLaw u s) {ps : List (WallNo × TileNo)}
    (hps : ∀ p ∈ ps, (s.tile p.1 p.2).kind ≠ .invalid) : WallLaw u (s.queueTiles ps) := by
  unfold State.queueTiles
  induction ps generalizing s with
  | nil => exact h
  | cons p ps ih =>
    rw [List.foldl_cons]
    refine ih (h.setWall (fun i => by rw [Wall.enqueue_tileAt])
      fun hr => hr.enqueue (.inl (hps p List.mem_cons_self))) fun q hq => ?_
    rw [tile_queueTile]
    exact hps q (List.mem_cons_of_mem p hq)

theorem WallLaw.announceDest {u : Prop} {s : State} (h : WallLaw u s) (d : Dest) :
    WallLaw u (s.announceDest d) :=
  h.queueTiles fun p hp => by
    rw [(h.1.bound d p.1 p.2).1 hp]
    exact nofun

theorem mem_showing {s : State} {w : WallNo} {x : Source} {i : TileNo} (hi : i ∈ s.showing w x) :
    (s.tile w i).kind ≠ .invalid := by
  intro hk
  have h : (s.shown (s.tile w i).kind == some x) = true := (mem_select _ _ i).1 hi
  rw [hk] at h
  exact nomatch h

theorem mem_validTiles {s : State} {w : WallNo} {i : TileNo} :
    i ∈ s.validTiles w ↔ (s.tile w i).kind ≠ .invalid := by
  refine (mem_select _ _ i).trans ?_
  change (s.tile w i).kind.valid = true ↔ _
  cases (s.tile w i).kind <;> simp [TileKind.valid]

theorem WallLaw.announceSource {u : Prop} {s : State} (h : WallLaw u s) (x : Source) :
    WallLaw u (s.announceSource x) :=
  h.queueTiles fun p hp => by
    obtain ⟨w, -, hp⟩ := List.mem_flatMap.1 hp
    obtain ⟨i, hi, rfl⟩ := List.mem_map.1 hp
    exact mem_showing hi

theorem WallLaw.setEntry {u : Prop} {s : State} (h : WallLaw u s) (d : Dest) (e : Entry)
    (he : e.tiles = (s.entry d).tiles) : WallLaw u (s.setEntry d e) :=
  h.of_lists (fun c => by
    rw [State.setEntry_entry]
    split
    · subst c; exact he
    · rfl) rfl

theorem wallLaw_mapLaw (u : Prop) : MapLaw (WallLaw u) where
  quiet s t h hs := hs.blind h
  entry s d e _ _ ht hs := hs.setEntry d e ht
  showDest d hs := hs.announceDest d
  showSource x hs := hs.announceSource x

/-! ### Takes come and go: their tiles are queued -/

theorem WallLaw.endNext {u : Prop} {s : State} (h : WallLaw u s) (d : Dest) (r : TakeResult) :
    WallLaw u (s.endNext d r) := by
  unfold State.endNext
  split
  · exact h
  · exact (h.setEntry d { s.entry d with next := none } rfl).blind (reportTake_same _ d _ _ r false)

theorem WallLaw.placeHeld {u : Prop} {s : State} (h : WallLaw u s) (d : Dest) (n : NextTake)
    (pl : Placement) : WallLaw u (s.placeHeld d n pl) :=
  WallLaw.announceDest
    (h.setEntry d { s.entry d with pending := some (heldTake n pl) } rfl) d

theorem WallLaw.promote {u : Prop} {s : State} (h : WallLaw u s) (d : Dest) :
    WallLaw u (s.promote d) := by
  unfold State.promote
  split
  · exact h
  · split
    · exact WallLaw.placeHeld (h.setEntry d { s.entry d with next := none } rfl) d _ _
    · exact h.endNext d _

theorem WallLaw.endPending {u : Prop} {s : State} (h : WallLaw u s) (d : Dest) (r : TakeResult) :
    WallLaw u (s.endPending d r) := by
  unfold State.endPending
  split
  · exact h
  · rename_i p _
    dsimp only
    have h1 := h.setEntry d { s.entry d with pending := none } rfl
    have h2 : WallLaw u (if p.phase = .waiting
        then (s.setEntry d { s.entry d with pending := none }).dropWaiting d
        else s.setEntry d { s.entry d with pending := none }) := by
      split
      · exact h1.blind (dropWaiting_same _ d)
      · exact h1
    have h3 := (h2.announceDest d).blind (reportTake_same _ d p.ticket p.tag r p.deferred)
    split
    · exact h3
    · exact h3.promote d

theorem WallLaw.arrive {u : Prop} {s : State} (h : WallLaw u s) (d : Dest) (n : NextTake)
    (pl : Placement) : WallLaw u (s.arrive d n pl).2 := by
  unfold State.arrive
  split
  · exact h.placeHeld d n pl
  · split
    · exact (h.endPending d .superseded).placeHeld d n pl
    · exact (h.endNext d .superseded).setEntry d
        { (s.endNext d .superseded).entry d with next := some n } rfl

theorem WallLaw.setPending {u : Prop} {s : State} (h : WallLaw u s) (d : Dest) (p : Pending) :
    WallLaw u (s.setPending d p) := h.setEntry d _ rfl

theorem WallLaw.requestToken {u : Prop} {s : State} (h : WallLaw u s) (d : Dest) :
    WallLaw u (s.requestToken d) := by
  unfold State.requestToken
  split
  · exact h
  · split
    · exact ((h.blind (setToken_same s _ _)).setPending d _).blind (sendMatrix_same _ _)
    · exact (h.setPending d _).blind (withLink_same _ _)

theorem WallLaw.freeToken {u : Prop} {s : State} (h : WallLaw u s) (t : Token) :
    WallLaw u (s.freeToken t) := by
  unfold State.freeToken State.grantWaiting
  split
  · exact h.blind (setToken_same s t .free)
  · dsimp only
    have h1 := fun l => (h.blind (setToken_same s t .inUse)).blind (withLink_same _ l)
    split
    · exact h1 _
    · exact ((h1 _).setPending _ _).blind (sendMatrix_same _ _)

theorem WallLaw.timeOut {u : Prop} {s : State} (h : WallLaw u s) (d : Dest) :
    WallLaw u (s.timeOut d) := by
  unfold State.timeOut
  split
  · exact h
  · dsimp only
    have h1 := (wallLaw_mapLaw u).setSuspect d true h
    refine WallLaw.endPending (WallLaw.blind ?_ (logSuspect_same _ d)) d _
    split
    · exact h1
    · exact h1.blind (setToken_same _ _ _)

theorem WallLaw.applyMatched {u : Prop} {s : State} (h : WallLaw u s) (d : Dest) (x : Source) (t : Token)
    (held : Nat) : WallLaw u (s.applyMatched d x t held) := by
  unfold State.applyMatched
  split
  · exact h
  · exact dispatchDue_keeps (fun c _ hu => hu.requestToken c) [d]
      (WallLaw.endPending ((wallLaw_mapLaw u).setSuspect d false ((wallLaw_mapLaw u).writeSource d _ _
        ((h.freeToken t).blind (withSched_same _ _)))) d _)

theorem WallLaw.departUp {u : Prop} {s : State} (h : WallLaw u s) (k : LinkCause) :
    WallLaw u (s.departUp k) := by
  have hall : WallLaw u (s.setLink .down k).cancelAll :=
    foldl_keeps (f := State.cancelTakes) (I := WallLaw u)
      (fun c hu => (WallLaw.endPending hu c .cancelled).endNext c .cancelled) _
      (h.blind (setLink_same s .down k))
  exact hall.blind (withLink_same _ _)

/-! ### Tiles are bound and unbound (R122, R123, R134) -/

theorem entry_unbindPair (s : State) (k : TileKind) (p : WallNo × TileNo) (c : Dest) :
    ((s.unbindPair k p).entry c).tiles
      = if k = .dest c then (s.entry c).tiles.filter (· != p) else (s.entry c).tiles := by
  cases k with
  | dest d =>
    simp only [State.unbindPair, State.removePair, State.setEntry_entry, TileKind.dest.injEq,
      eq_comm (a := d)]
    split
    · subst c; rfl
    · rfl
  | invalid => rfl
  | fixed x => rfl

theorem entry_bindPair (s : State) (k : TileKind) (p : WallNo × TileNo) (c : Dest) :
    ((s.bindPair k p).entry c).tiles
      = if k = .dest c then insertPair p (s.entry c).tiles else (s.entry c).tiles := by
  cases k with
  | dest d =>
    simp only [State.bindPair, State.addPair, State.setEntry_entry, TileKind.dest.injEq,
      eq_comm (a := d)]
    split
    · subst c; rfl
    · rfl
  | invalid => rfl
  | fixed x => rfl

/-- The tile lists when a descriptor is written: the pair leaves one list and joins another. -/
theorem writeTile_lists (s : State) (w : WallNo) (t : TileNo) (k : TileKind) (c : Dest) :
    ((s.writeTile w t k).entry c).tiles
      = if (s.tile w t).kind = k then (s.entry c).tiles
        else if k = .dest c then insertPair (w, t) (s.entry c).tiles
        else if (s.tile w t).kind = .dest c then (s.entry c).tiles.filter (· != (w, t))
        else (s.entry c).tiles := by
  unfold State.writeTile
  dsimp only
  rw [State.setWall_entry]
  split
  · rfl
  · rename_i hk
    rw [entry_bindPair, entry_unbindPair]
    split
    · rename_i hc
      rw [if_neg fun h => hk (h.trans hc.symm)]
    · rfl

/-- The walls when a descriptor is written. -/
theorem writeTile_wall (s : State) (w : WallNo) (t : TileNo) (k : TileKind) (v : WallNo) :
    (s.writeTile w t k).wall v
      = if v = w then (s.wall w).setTile t { kind := k, blank := !k.valid } else s.wall v := by
  have hwall : ∀ v, (if (s.tile w t).kind = k then s
      else (s.unbindPair (s.tile w t).kind (w, t)).bindPair k (w, t)).wall v = s.wall v := by
    intro v
    split
    · rfl
    · unfold State.bindPair State.unbindPair
      split <;> split <;> rfl
  unfold State.writeTile
  dsimp only
  rw [hwall w, State.setWall_wall, hwall v]
  rfl

/-- The kinds of the tiles when a descriptor is written. -/
theorem writeTile_kind (s : State) (w : WallNo) (t : TileNo) (k : TileKind) (v : WallNo) (i : TileNo) :
    ((s.writeTile w t k).tile v i).kind = if v = w ∧ i = t then k else (s.tile v i).kind := by
  rw [State.tile_eq, writeTile_wall]
  by_cases hv : v = w
  · subst v
    rw [if_pos rfl, Wall.tileAt_setTile]
    by_cases hi : i = t
    · simp [hi]
    · simp [hi, State.tile_eq]
  · simp [hv, State.tile_eq]

/-- A tile is bound to another kind, and the tile list that gains it has room. -/
theorem FanoutLaw.writeTile {s : State} (h : FanoutLaw s) {w : WallNo} {t : TileNo} {k : TileKind}
    (hroom : s.fanoutFull w t k = false) : FanoutLaw (s.writeTile w t k) := by
  refine ⟨fun d => ?_, fun d => ?_, fun d v i => ?_⟩
  · rw [writeTile_lists]
    split
    · exact h.ordered d
    · split
      · exact pairwise_insertPair _ (h.ordered d)
      · split
        · exact (h.ordered d).filter _
        · exact h.ordered d
  · rw [writeTile_lists]
    split
    · exact h.length d
    · rename_i hk
      split
      · rename_i hd
        have hlt : (s.entry d).tiles.length < 8 := by
          subst hd
          obtain h1 | h1 := Bool.and_eq_false_iff.1 hroom
          · exact absurd (by simpa using h1) hk
          · exact Nat.lt_of_not_le (of_decide_eq_false h1)
        exact (length_insertPair_le _ _).trans hlt
      · split
        · exact (List.length_filter_le _ _).trans (h.length d)
        · exact h.length d
  · rw [writeTile_lists, writeTile_kind]
    by_cases hvi : v = w ∧ i = t
    · obtain ⟨rfl, rfl⟩ := hvi
      have hb := h.bound d v i
      by_cases hk : (s.tile v i).kind = k
      · simp [hk, hb]
      · rw [if_neg hk]
        by_cases hd : k = .dest d
        · simp [hd, mem_insertPair]
        · rw [if_neg hd]
          by_cases ho : (s.tile v i).kind = .dest d
          · simp [ho, hd]
          · simp [ho, hb, hd]
    · have hne : (v, i) ≠ (w, t) := fun e => hvi (Prod.ext_iff.1 e)
      rw [if_neg hvi, ← h.bound d v i]
      split
      · rfl
      · split
        · simp [mem_insertPair, hne]
        · split
          · simp [List.mem_filter, hne]
          · rfl

theorem WallLaw.serveTileSet {u : Prop} {s : State} (h : WallLaw u s) (o : Order) :
    WallLaw u (serveTileSet o s).state := by
  unfold Machine.serveTileSet
  split
  · rename_i w t k _ _ _
    split
    · exact h
    · rename_i hroom
      have hf := h.1.writeTile (by simpa using hroom)
      refine ⟨hf.of_lists (fun d => rfl) fun v i => by rw [tile_queueTile], fun hu => ?_⟩
      have hs := (updateQueueLaw_iff s).1 (h.2 hu)
      rw [updateQueueLaw_iff]
      intro v
      rw [wall_queueTile, writeTile_wall]
      by_cases hv : v = w
      · rw [if_pos hv, if_pos hv]
        exact (hs w).write t k
      · rw [if_neg hv, if_neg hv]
        exact hs v
  · exact h

/-- With every tile INVALID and the queue empty, a wall is lawful. -/
theorem Wall.lawful_of_cleared {r : Wall} (hq : r.queue = []) (ht : ∀ i, r.tileAt i = Tile.reset) :
    r.Lawful :=
  ⟨by simp [hq], fun i hi => by simp [hq] at hi, fun i hi => by simp [ht i, Tile.reset] at hi⟩

theorem resetWall_entry (s : State) (w : WallNo) (d : Dest) :
    (s.resetWall w).entry d = { s.entry d with tiles := (s.entry d).tiles.filter (·.1 != w) } :=
  mapEntries_entry _ _ d

theorem resetWall_wall (s : State) (w v : WallNo) :
    (s.resetWall w).wall v = if v = w then (s.wall w).blockReset else s.wall v :=
  s.setWall_wall w (s.wall w).blockReset v

/-- A wall's pairs leave every list, and its tiles are INVALID and not queued. -/
theorem WallLaw.resetWall {u : Prop} {s : State} (h : WallLaw u s) (w : WallNo) :
    WallLaw u (s.resetWall w) := by
  have hlist (d : Dest) : ((s.resetWall w).entry d).tiles = (s.entry d).tiles.filter (·.1 != w) := by
    rw [resetWall_entry]
  refine ⟨⟨fun d => ?_, fun d => ?_, fun d v i => ?_⟩, fun hu => ?_⟩
  · rw [hlist]
    exact (h.1.ordered d).filter _
  · rw [hlist]
    exact (List.length_filter_le _ _).trans (h.1.length d)
  · rw [hlist, List.mem_filter, h.1.bound, State.tile_eq (s.resetWall w), resetWall_wall]
    by_cases hv : v = w
    · simp [hv, Wall.blockReset, Wall.tileAt, Tile.reset]
    · simp [hv, State.tile_eq]
  · rw [updateQueueLaw_iff]
    intro v
    rw [resetWall_wall]
    split
    · exact Wall.lawful_of_cleared rfl fun i => by simp [Wall.blockReset, Wall.tileAt]
    · exact (updateQueueLaw_iff s).1 (h.2 hu) v

/-! ### The law of the step -/

theorem wallLaw_stepLaw (u : Prop) : StepLaw (WallLaw u) where
  toMapLaw := wallLaw_mapLaw u
  wires s l _ _ hs := hs.blind (withLink_same s l)
  counts s a b hs := hs.of_lists (fun _ => rfl) rfl
  wall s w r hq ht hs := by
    have hat : ∀ i, r.tileAt i = (s.wall w).tileAt i := fun i => by simp [Wall.tileAt, ht]
    exact hs.setWall (fun i => by rw [hat]) fun hr => ⟨hq ▸ hr.once,
      fun i hi => hat i ▸ hr.due i (hq ▸ hi), fun i hi => hat i ▸ hq ▸ hr.blank i (hat i ▸ hi)⟩
  thaw {s} w hs := hs.queueTiles fun p hp => by
    obtain ⟨i, hi, rfl⟩ := List.mem_map.1 hp
    exact mem_validTiles.1 hi
  tileSet o hs := hs.serveTileSet o
  drain {s} f w hs := by
    unfold State.drainWall
    dsimp only
    split
    · exact hs
    · refine hs.setWall (fun i => ?_) fun hr => hr.drain _ _
      rw [Wall.tileAt_foldl_sent]
      split
      · exact Tile.sent_kind _
      · rfl
  clearWall w hs := hs.resetWall w
  arrive d n pl hs := hs.arrive d n pl
  request s d _ _ _ hs := hs.requestToken d
  advance s d _ q _ _ _ hs := hs.setPending d q
  timeOut s d _ _ _ hs := hs.timeOut d
  matched s d x t held _ _ _ hs := hs.applyMatched d x t held
  stray s t _ _ hs := hs.freeToken t
  depart k hs := hs.departUp k
  untag {s} hs := hs.of_lists (fun d => by
    rw [show s.resetSalvos.entry d = (s.entry d).untagged from mapEntries_entry s _ d]
    rfl) rfl
  reset s := by
    have hlist : ∀ d, (s.assertReset.entry d).tiles = [] := fun d => by
      simp [State.assertReset, State.reset, State.entry, CrosspointMap.reset, Entry.reset]
    have hwall : ∀ w, s.assertReset.wall w = (s.wall w).resetKeepLine := fun w => by
      simp [State.assertReset, State.wall]
    have htile : ∀ w i, (s.assertReset.wall w).tileAt i = Tile.reset := fun w i => by
      simp [hwall, Wall.resetKeepLine, Wall.reset, Wall.tileAt]
    refine ⟨⟨fun d => by simp [hlist], fun d => by simp [hlist], fun d w i => ?_⟩, fun _ => ?_⟩
    · simp [hlist, State.tile_eq, htile, Tile.reset]
    · exact (updateQueueLaw_iff _).2 fun w => Wall.lawful_of_cleared (by rw [hwall]; rfl) (htile w)

/-- Settles O59: every operation that reaches tiles, tile lists or update queues keeps both laws. -/
theorem everyStepKeepsTheFanoutListsAndUpdateQueues :
    Obligations.EveryStepKeepsTheFanoutListsAndUpdateQueues := by
  unfold Obligations.EveryStepKeepsTheFanoutListsAndUpdateQueues
  exact fun s t hs ht => (wallLaw_stepLaw (UpdateQueueLaw s)).step ht ⟨hs, id⟩

end Sys2Proof.Machine
end

section
/-! The arguments of an order, read back from its payload, and the step in which an order is answered. -/

namespace Sys2Proof.Machine

/-! ### Arguments in range and outside it (R17, R170) -/

@[simp] theorem below?_val {n : Nat} (x : Fin n) : below? n x.1 = some x := by
  simp [below?]

theorem below?_none {n v : Nat} (h : n ≤ v) : below? n v = none := by
  simp [below?, Nat.not_lt.2 h]

@[simp] theorem dest?_val (d : Dest) : dest? d.1 = some d := below?_val d
@[simp] theorem source?_val (x : Source) : source? x.1 = some x := below?_val x
@[simp] theorem panel?_val (p : PanelNo) : panel? p.1 = some p := below?_val p
@[simp] theorem level?_val (l : Level) : level? l.1 = some l := below?_val l
@[simp] theorem wall?_val (w : WallNo) : wall? w.1 = some w := below?_val w
@[simp] theorem tileNo?_val (i : TileNo) : tileNo? i.1 = some i := below?_val i
@[simp] theorem channel?_val (c : ChannelNo) : channel? c.1 = some c := below?_val c
@[simp] theorem slot?_val (k : SlotNo) : slot? k.1 = some k := below?_val k
@[simp] theorem input?_val (i : InputNo) : input? i.1 = some i := below?_val i

@[simp] theorem group?_code (g : Group) : group? (groupCode g) = some g := by cases g <;> rfl
@[simp] theorem class?_code (c : DestClass) : class? c.code = some c := by cases c <;> rfl

/-! ### The step that serves an order -/

/-- The state in which an order is served at `τ`. -/
def State.atDesk (s : State) (τ : Nat) (o : Order) : State := (s.clock τ).beginServing o

theorem atDesk_same (s : State) (τ : Nat) (o : Order) : SameBut [.now, .control] s (s.atDesk τ o) :=
  (clock_same s τ).comp (beginServing_same _ o) (by decide) (by decide)

/-- An order whose serving answers `v` and writes only the parts `ps`, none of them the interface's. -/
theorem serve_served {s : State} {o : Order} {code : Byte} (h : Serving s o code) (τ : Nat)
    {act : Order → State → Answer} {u : State} {v : Verdict} {p : List Byte} {ps : List Part}
    (ha : act o (s.atDesk τ o) = ⟨u, v, p⟩) (hu : SameBut ps (s.atDesk τ o) u)
    (hps : Part.now ∉ ps ∧ Part.control ∉ ps ∧ Part.recorder ∉ ps := by decide) :
    ∃ t, s.serve τ code act = t ∧ Served s t τ o v p [] ps ∧ SameBut [.control] u t := by
  obtain ⟨hn, hc, hr⟩ := hps
  have hrec : u.recorder.high = [] := by
    rw [show u.recorder = s.recorder from hu .recorder hr]
    exact h.owed
  refine ⟨_, rfl, ?_, ?_⟩ <;> rw [serve_answer h τ ha hrec]
  · refine ⟨hu .now hn, ?_, ?_⟩
    · change u.control.answered o v p = _
      rw [show u.control = { s.control with serving := some o } from hu .control hc]
      rfl
    · exact (((atDesk_same s τ o).mono (by simp)).trans (hu.mono fun q hq => by simp [hq])).trans
        ((withControl_same u _).mono (by simp))
  · exact withControl_same u _

end Sys2Proof.Machine
end

section
/-! O3: the state after reset. -/

namespace Sys2Proof.Machine

@[simp] theorem reset_entry (d : Dest) : State.reset.entry d = Entry.reset := by
  simp [State.entry, State.reset, CrosspointMap.reset]

@[simp] theorem reset_token (t : Token) : State.reset.token t = .free := by
  simp [State.token, State.reset, Link.reset]

@[simp] theorem reset_grp (g : Group) : State.reset.grp g = GroupRec.reset := by
  simp [State.grp, State.reset]

@[simp] theorem reset_slot (k : SlotNo) : State.reset.slot k = Slot.reset := by
  simp [State.slot, State.reset]

@[simp] theorem reset_trig (i : InputNo) : State.reset.trig i = Trigger.reset := by
  simp [State.trig, State.reset]

@[simp] theorem reset_tallyOf (x : Source) : State.reset.tallyOf x = Tally.reset := by
  simp [State.tallyOf, State.reset]

@[simp] theorem reset_wall (w : WallNo) : State.reset.wall w = Wall.reset := by
  simp [State.wall, State.reset]

@[simp] theorem reset_tile (w : WallNo) (i : TileNo) : State.reset.tile w i = Tile.reset := by
  rw [State.tile_eq, reset_wall]
  simp [Wall.reset, Wall.tileAt]

@[simp] theorem reset_chan (c : ChannelNo) : State.reset.chan c = Channel.reset := by
  simp [State.chan, State.reset, Recorder.reset]

theorem reset_panel (p : PanelNo) :
    State.reset.panel p = if p = 0 then Panel.zero else Panel.off := by
  unfold State.panel State.reset panelsReset
  split
  · subst p; rfl
  · have hne : (0 : Nat) ≠ p.1 := fun e => ‹¬ p = 0› (Fin.ext e.symm)
    simp [hne]

theorem reset_resetValues : ResetValues State.reset where
  now := rfl
  control := rfl
  entries := reset_entry
  counts := ⟨rfl, rfl⟩
  panels := reset_panel
  groups := reset_grp
  sched := rfl
  link := ⟨rfl, rfl, rfl, rfl, rfl, rfl⟩
  pool := reset_token
  slots := reset_slot
  triggers i := by rw [reset_trig]; rfl
  tally := reset_tallyOf
  walls w := by rw [reset_wall]; exact ⟨rfl, rfl, rfl, rfl⟩
  tiles := reset_tile
  names x i := by simp [State.nameOf, State.reset, nameReset]
  channels := reset_chan
  line := ⟨rfl, rfl⟩

theorem reset_withinLimits : WithinLimits State.reset where
  orders := Nat.zero_le _
  replies := Nat.zero_le _
  notices := Nat.zero_le _
  marks c := by simp [Channel.reset]
  commands := List.nodup_nil
  groups g := by
    rw [reset_grp]
    exact ⟨fun _ => rfl, fun h => absurd rfl h, nofun⟩
  owed := rfl

theorem reset_free (d : Dest) : (State.reset.entry d).free := by
  rw [reset_entry]; exact ⟨rfl, rfl⟩

theorem reset_tallyLaw : TallyLaw State.reset where
  program x := by
    rw [reset_tallyOf]
    exact (List.countP_eq_zero.2 fun d _ => by simp [Entry.reset]).symm
  preview x := by
    rw [reset_tallyOf]
    exact (List.countP_eq_zero.2 fun d _ => by simp [Entry.reset]).symm
  record x := by
    rw [reset_tallyOf]
    exact (List.countP_eq_zero.2 fun c _ => by simp [Channel.reset]).symm
  colour x := by rw [reset_tallyOf]; rfl

theorem reset_fanoutLaw : FanoutLaw State.reset where
  ordered d := by simp [Entry.reset]
  length d := by simp [Entry.reset]
  bound d w i := by simp [Entry.reset, Tile.reset]

theorem reset_updateQueueLaw : UpdateQueueLaw State.reset where
  once w := by simp [Wall.reset]
  due w i hi := by simp [Wall.reset] at hi
  blank w i hi := by simp [Tile.reset] at hi

theorem reset_tagged (k : SlotNo) : State.reset.tagged k = 0 := by
  unfold State.tagged
  rw [List.countP_eq_zero.2 fun d _ => by simp [Entry.reset],
    List.countP_eq_zero.2 fun d _ => by simp [Entry.reset]]

theorem reset_salvoLaw : SalvoLaw State.reset where
  once k := by simp [Slot.reset]
  length k := by simp [Slot.reset]
  group k e he := by simp [Slot.reset] at he
  empty k _ := by simp [Slot.reset]
  count k := by rw [reset_tagged, reset_slot]; rfl
  firing k := by simp [Slot.reset]
  pending d p hp := by simp [Entry.reset] at hp
  next d n hn := by simp [Entry.reset] at hn

/-- Settles O3: each law of the reset values, record by record. -/
theorem resetStateMeetsEveryLaw : Obligations.ResetStateMeetsEveryLaw := by
  unfold Obligations.ResetStateMeetsEveryLaw
  exact ⟨reset_resetValues, rfl, rfl, rfl, rfl, rfl, fun _ => reset_resetValues, reset_withinLimits,
    fun x hx => (List.not_mem_nil hx).elim, fun _ => ⟨reset_free, reset_token, rfl⟩,
    tokenLaw_of_free reset_free reset_token rfl, reset_tallyLaw, reset_fanoutLaw, reset_updateQueueLaw,
    reset_salvoLaw⟩

end Sys2Proof.Machine
end

section
/-! O19: the access check (R16, R18). -/

namespace Sys2Proof.Machine

/-- The first step of a list that refuses is its head, or else the first of the rest. -/
theorem firstRefusal_cons (b : Bool) (v : Verdict) (l : List (Bool × Verdict)) :
    (((b, v) :: l).find? (·.1)).map (·.2) = if b then some v else (l.find? (·.1)).map (·.2) := by
  cases b <;> rfl

theorem covers_eq (p : Panel) (d : Dest) :
    p.covers d = (decide (p.low1 ≤ d ∧ d ≤ p.high1) || decide (p.low2 ≤ d ∧ d ≤ p.high2)) := by
  simp only [Panel.covers, Bool.decide_and, Fin.le_def]

theorem absent_eq (s : State) (d : Dest) (x : Option Source) :
    (!s.present d || !(x.all s.declared))
      = (decide (s.map.dests ≤ d.1) || x.any (fun y => decide (s.map.sources ≤ y.1))) := by
  simp only [State.present, ← Nat.not_lt, decide_not]
  cases x <;> rfl

theorem lockedOut_eq (l : Option PanelNo) (p : PanelNo) :
    (l.isSome && l != some p) = l.any (· != p) := by
  cases l with
  | none => rfl
  | some q => simp [bne]

/-- The access check, step by step, as R16 lists them. -/
theorem accessCheck_eq (s : State) (p : PanelNo) (d : Dest) (x : Option Source) :
    s.accessCheck p d x =
      (([(!(s.panel p).enabled, .panelOff),
         (!(decide ((s.panel p).low1 ≤ d ∧ d ≤ (s.panel p).high1)
            || decide ((s.panel p).low2 ≤ d ∧ d ≤ (s.panel p).high2)), .outsideWindow),
         (x.isSome && s.link.state != .up, .matrixDown),
         (decide (s.map.dests ≤ d.1) || x.any (fun y => decide (s.map.sources ≤ y.1)), .absent),
         ((s.grp (s.entry d).group).state == .disabled, .noReference),
         ((s.entry d).lock.any (· != p), .locked),
         (decide ((s.entry d).protect < (s.panel p).level), .isProtected)]
        : List (Bool × Verdict)).find? (·.1)).map (·.2) := by
  simp only [firstRefusal_cons, List.find?_nil, Option.map_none, ← covers_eq, ← absent_eq,
    ← lockedOut_eq, decide_eq_true_eq, Fin.lt_def]
  rfl

/-- The check reads nothing that serving an order has changed. -/
theorem atDesk_accessCheck (s : State) (τ : Nat) (o : Order) (p : PanelNo) (d : Dest)
    (x : Option Source) : (s.atDesk τ o).accessCheck p d x = s.accessCheck p d x := rfl

theorem exec_take_refused {τ : Nat} {s : State} {o : Order} {d : Dest} {x : Source} {p : PanelNo}
    {v : Verdict} (h : Serving s o 0x10) (hd : read16 o.payload 0 = d) (hx : read16 o.payload 2 = x)
    (hp : read8 o.payload 4 = p) (hv : s.accessCheck p d (some x) = some v) :
    exec (.take τ) s = .next (s.answered τ o v []) := by
  refine congrArg Host.Outcome.next (serve_quiet h τ (act := serveTake) ?_)
  change serveTake o (s.atDesk τ o) = ⟨s.atDesk τ o, v, []⟩
  simp only [serveTake, hd, hx, hp, dest?_val, source?_val, panel?_val, atDesk_accessCheck, hv, answer]

theorem exec_lock_refused {τ : Nat} {s : State} {o : Order} {d : Dest} {p : PanelNo} {v : Verdict}
    (h : Serving s o 0x12) (hd : read16 o.payload 0 = d) (hp : read8 o.payload 2 = p)
    (hv : s.accessCheck p d none = some v) : exec (.lock τ) s = .next (s.answered τ o v []) := by
  refine congrArg Host.Outcome.next (serve_quiet h τ (act := serveLock) ?_)
  change serveLock o (s.atDesk τ o) = ⟨s.atDesk τ o, v, []⟩
  simp only [serveLock, hd, hp, dest?_val, panel?_val, atDesk_accessCheck, hv, answer]

theorem exec_protect_refused {τ : Nat} {s : State} {o : Order} {d : Dest} {p : PanelNo} {v : Verdict}
    (h : Serving s o 0x14) (hd : read16 o.payload 0 = d) (hp : read8 o.payload 2 = p)
    (hl : read8 o.payload 3 < 4) (hv : s.accessCheck p d none = some v) :
    exec (.protect τ) s = .next (s.answered τ o v []) := by
  refine congrArg Host.Outcome.next (serve_quiet h τ (act := serveProtect) ?_)
  change serveProtect o (s.atDesk τ o) = ⟨s.atDesk τ o, v, []⟩
  have hlev : level? (read8 o.payload 3) = some ⟨_, hl⟩ := level?_val ⟨_, hl⟩
  simp only [serveProtect, hd, hp, hlev, dest?_val, panel?_val, atDesk_accessCheck, hv, answer]

/-- Settles O19. -/
theorem accessCheckRefusesAtItsFirstFailingStep :
    Obligations.AccessCheckRefusesAtItsFirstFailingStep := by
  unfold Obligations.AccessCheckRefusesAtItsFirstFailingStep
  exact ⟨accessCheck_eq, fun _ _ _ _ _ _ _ h hd hx hp hv => exec_take_refused h hd hx hp hv,
    fun _ _ _ _ _ _ hd hp hv => ⟨fun h => exec_lock_refused h hd hp hv,
      fun h hl => exec_protect_refused h hd hp hl hv⟩⟩

end Sys2Proof.Machine
end

section
/-! O24: the panel table (R14). -/

namespace Sys2Proof.Machine

/-- An order with an argument outside its range is refused, and nothing changes. -/
theorem serve_refuseRange {s : State} {o : Order} {code : Byte} (h : Serving s o code) (τ : Nat)
    {act : Order → State → Answer} (ha : act o (s.atDesk τ o) = refuseRange (s.atDesk τ o)) :
    s.serve τ code act = s.answered τ o .outOfRange [] := serve_quiet h τ ha

theorem windowBound_eq {v : Nat} {b : Dest} (h : b.1 = min v 511) : windowBound v = b := by
  refine Fin.ext ?_
  unfold windowBound
  split
  · change v = b.1
    omega
  · change 511 = b.1
    omega

theorem readFlag_eq (p : List Byte) (i : Nat) : readFlag p i = decide (read8 p i ≠ 0) := by
  simp [readFlag, bne, beq_eq_decide]

theorem exec_panelSet_refused {τ : Nat} {s : State} {o : Order} (h : Serving s o 0x18)
    (hr : 32 ≤ read8 o.payload 0 ∨ 4 ≤ read8 o.payload 2) :
    exec (.panelSet τ) s = .next (s.answered τ o .outOfRange []) := by
  refine congrArg Host.Outcome.next (serve_refuseRange h τ (act := servePanelSet) ?_)
  unfold servePanelSet
  rcases hr with hp | hl
  · rw [show panel? (read8 o.payload 0) = none from below?_none hp]
  · rw [show level? (read8 o.payload 2) = none from below?_none hl]
    cases panel? (read8 o.payload 0) <;> rfl

theorem exec_panelRead_refused {τ : Nat} {s : State} {o : Order} (h : Serving s o 0x19)
    (hp : 32 ≤ read8 o.payload 0) :
    exec (.panelRead τ) s = .next (s.answered τ o .outOfRange []) := by
  refine congrArg Host.Outcome.next (serve_refuseRange h τ (act := servePanelRead) ?_)
  rw [servePanelRead, show panel? (read8 o.payload 0) = none from below?_none hp]

theorem exec_panelRead {τ : Nat} {s : State} {o : Order} {p : PanelNo} (h : Serving s o 0x19)
    (hp : read8 o.payload 0 = p) :
    exec (.panelRead τ) s = .next (s.answered τ o .done (panelRecord p (s.panel p))) := by
  refine congrArg Host.Outcome.next (serve_quiet h τ (act := servePanelRead) ?_)
  simp only [servePanelRead, hp, panel?_val]
  rfl

/-- Settles O24. -/
theorem panelSetReplacesTheRecord : Obligations.PanelSetReplacesTheRecord := by
  unfold Obligations.PanelSetReplacesTheRecord
  refine fun τ s o => ⟨exec_panelSet_refused, ?_, exec_panelRead_refused,
    fun p h hp => exec_panelRead h hp⟩
  intro p l lo1 hi1 lo2 hi2 h hp hl hlo1 hhi1 hlo2 hhi2 r
  refine congrArg Host.Outcome.next (serve_answer h τ (act := servePanelSet)
    (t := (s.atDesk τ o).setPanel p r) (v := .done) (p := panelRecord p r) ?_ h.owed)
  change servePanelSet o (s.atDesk τ o) = _
  simp only [servePanelSet, hp, hl, panel?_val, level?_val, windowBound_eq hlo1, windowBound_eq hhi1,
    windowBound_eq hlo2, windowBound_eq hhi2, readFlag_eq, r]

end Sys2Proof.Machine
end

section
/-! O20: the orders that read. -/

namespace Sys2Proof.Machine

section
variable {τ : Nat} {s : State} {o : Order}

theorem exec_query {d : Dest} (h : Serving s o 0x15) (hd : read16 o.payload 0 = d) :
    exec (.query τ) s = .next (s.answered τ o .done (s.queryPayload d)) := by
  refine congrArg Host.Outcome.next (serve_quiet h τ (act := serveQuery) ?_)
  simp only [serveQuery, hd, dest?_val]
  rfl

/-- REF_READ counts the time since the last edge at the instant of the order. -/
theorem exec_refRead {g : Group} (h : Serving s o 0x21) (hg : read8 o.payload 0 = groupCode g) :
    exec (.refRead τ) s = .next (s.answered τ o .done ((s.clock τ).refPayload g)) := by
  refine congrArg Host.Outcome.next (serve_quiet h τ (act := serveRefRead) ?_)
  simp only [serveRefRead, hg, group?_code]
  rfl

theorem exec_leadRead (h : Serving s o 0x23) :
    exec (.leadRead τ) s = .next (s.answered τ o .done (leadPayload s.sched)) :=
  congrArg Host.Outcome.next (serve_quiet h τ (act := serveLeadRead) rfl)

theorem exec_salvoRead {k : SlotNo} (h : Serving s o 0x36) (hk : read8 o.payload 0 = k) :
    exec (.salvoRead τ) s = .next (s.answered τ o .done (salvoPayload (s.slot k))) := by
  refine congrArg Host.Outcome.next (serve_quiet h τ (act := serveSalvoRead) ?_)
  simp only [serveSalvoRead, hk, slot?_val]
  rfl

theorem exec_trigRead {i : InputNo} (h : Serving s o 0x39) (hi : read8 o.payload 0 = i) :
    exec (.trigRead τ) s = .next (s.answered τ o .done (trigReadPayload i (s.trig i))) := by
  refine congrArg Host.Outcome.next (serve_quiet h τ (act := serveTrigRead) ?_)
  simp only [serveTrigRead, hi, input?_val]
  rfl

theorem exec_tallyRead {x : Source} (h : Serving s o 0x3C) (hx : read16 o.payload 0 = x) :
    exec (.tallyRead τ) s = .next (s.answered τ o .done (tallyPayload (s.tallyOf x))) := by
  refine congrArg Host.Outcome.next (serve_quiet h τ (act := serveTallyRead) ?_)
  simp only [serveTallyRead, hx, source?_val]
  rfl

theorem exec_wallRead_wall {w : WallNo} (h : Serving s o 0x45) (hw : read8 o.payload 0 = w)
    (hi : read8 o.payload 1 = 0xFF) :
    exec (.wallRead τ) s = .next (s.answered τ o .done (s.wallPayload w)) := by
  refine congrArg Host.Outcome.next (serve_quiet h τ (act := serveWallRead) ?_)
  simp only [serveWallRead, hw, hi, wall?_val, if_true]
  rfl

theorem exec_wallRead_tile {w : WallNo} {i : TileNo} (h : Serving s o 0x45)
    (hw : read8 o.payload 0 = w) (hi : read8 o.payload 1 = i) :
    exec (.wallRead τ) s = .next (s.answered τ o .done (s.tilePayload w i)) := by
  refine congrArg Host.Outcome.next (serve_quiet h τ (act := serveWallRead) ?_)
  have hall : i.1 ≠ 0xFF := by omega
  simp only [serveWallRead, hw, hi, wall?_val, tileNo?_val, hall, if_false]
  rfl

theorem exec_recRead {c : ChannelNo} (h : Serving s o 0x4C) (hc : read8 o.payload 0 = c) :
    exec (.recRead τ) s
      = .next (s.answered τ o .done (recPayload (s.chan c) (queuedFor s.recorder.queue c))) := by
  refine congrArg Host.Outcome.next (serve_quiet h τ (act := serveRecRead) ?_)
  simp only [serveRecRead, hc, channel?_val]
  rfl

end

/-- The count of valid tiles, as the wall record gives it. -/
theorem validTiles_length (s : State) (w : WallNo) :
    (s.validTiles w).length = (s.wall w).tiles.toList.countP fun i => i.kind ≠ .invalid := by
  rw [State.validTiles, select_length]
  refine List.countP_congr fun i _ => ?_
  cases i.kind <;> simp [TileKind.valid]

/-- What a tile shows is read from its kind, whichever it is. -/
theorem contents_shown (s : State) (k : TileKind) :
    (s.contents k).source = s.shown k ∧ (s.contents k).name = s.shownName (s.shown k)
      ∧ (s.contents k).colour = s.shownColour (s.shown k) := by
  cases k <;> exact ⟨rfl, rfl, rfl⟩

/-- Settles O20: each reading order replies its record, and the record is the bytes of R172. -/
theorem readingOrdersChangeNothing : Obligations.ReadingOrdersChangeNothing := by
  unfold Obligations.ReadingOrdersChangeNothing
  intro τ s o read flag opt source geometry
  have bytes {p q : List Byte} (h : p = q) :
      (.next (s.answered τ o .done p) : Host.Outcome State Fault Refusal) = read q := h ▸ rfl
  clear_value read
  have hopt : opt = optField := by funext v; cases v <;> rfl
  have hsource : source = srcField := by funext v; cases v <;> rfl
  have hgeometry : geometry = geometryRecord := by funext v; cases v <;> rfl
  have hflag : flag = flagByte := rfl
  clear_value opt source geometry flag
  subst hopt hsource hgeometry hflag
  refine ⟨?query, fun p h hp => (exec_panelRead h hp).trans (bytes rfl), ?refRead,
    fun h => (exec_leadRead h).trans (bytes rfl), ?salvoRead,
    fun i h hi => (exec_trigRead h hi).trans (bytes rfl),
    fun x h hx => (exec_tallyRead h hx).trans (bytes rfl), fun w h hw => ⟨?wall, ?tile⟩, ?recRead⟩
  case query =>
    intro d h hd e pending next
    have hp : pending = pendingPayload e.pending := by
      simp only [pending, e]
      cases (s.entry d).pending with
      | none => rfl
      | some p =>
        simp only [pendingPayload]
        cases p.token <;> rfl
    have hn : next = nextPayload e.next := by
      simp only [next, e]
      cases (s.entry d).next <;> rfl
    refine (exec_query h hd).trans (bytes ?_)
    simp only [hp, hn, State.queryPayload, listField, ← List.append_assoc]
    rfl
  case refRead =>
    intro g h hg r
    refine (exec_refRead h hg).trans ?_
    simp only [State.refPayload, State.frameTicks, State.switchTicks, State.since, r]
    rw [show (s.clock τ).grp g = s.grp g from rfl]
    cases (s.grp g).active <;> cases (s.grp g).last <;> exact bytes rfl
  case salvoRead =>
    intro k h hk q firing
    have hf : firing = flagByte q.firing.isSome ++ firingRecord q.firing := by
      simp only [firing, q]
      cases (s.slot k).firing <;> rfl
    refine (exec_salvoRead h hk).trans (bytes ?_)
    simp only [hf, salvoPayload, listField, ← List.append_assoc]
    rfl
  case wall =>
    intro hi
    refine (exec_wallRead_wall h hw hi).trans (bytes ?_)
    simp only [State.wallPayload, listField, validTiles_length, ← List.append_assoc]
  case tile =>
    intro i hi kind binding shown named marked
    refine (exec_wallRead_tile h hw hi).trans (bytes ?_)
    have hq : (s.wall w).queue.contains i = decide (i ∈ (s.wall w).queue) := List.contains_eq_mem ..
    have hb : binding = be8 kind.code ++ tileValue kind := by
      simp only [binding]
      cases kind <;> rfl
    have hs : shown = s.shown kind := by
      simp only [shown]
      cases kind <;> rfl
    have hn : named = (s.shownName shown).toList ++ be8 (s.shownColour shown).code := by
      simp only [named]
      cases shown <;> rfl
    have hm : marked = markersByte (s.contents kind) ++ be8 (s.contents kind).protect.1 := by
      simp only [marked]
      cases kind <;> rfl
    simp only [State.tilePayload, contentsRecord, contents_shown, hq, hb, hn, hm, hs,
      List.append_assoc]
    rfl
  case recRead =>
    intro c h hc r bound queued
    have hb : bound = destField r.bound := by
      simp only [bound, r]
      cases (s.chan c).bound <;> rfl
    have hq : queued = optField ((queuedFor s.recorder.queue c).map RecOp.code) := by
      simp only [queued, queuedFor, beq_eq_decide]
      cases (s.recorder.queue.find? _).map _ with
      | none => rfl
      | some op => cases op <;> rfl
    refine (exec_recRead h hc).trans (bytes ?_)
    simp only [hb, hq, recPayload, r]

end Sys2Proof.Machine
end

section
/-! O21: the walk of SEEK (R24). -/

namespace Sys2Proof.Machine

/-- The entry that a walk from `d` examines after `j` others. -/
def walked (down : Bool) (d : Dest) (j : Nat) : Dest :=
  Fin.ofNat 512 (if down then d.1 - j else d.1 + j)

/-- The entry `k` places from `d` is the last of the map in the direction given. -/
def atEnd (down : Bool) (d : Dest) (k : Nat) : Prop := if down then k = d.1 else d.1 + k = 511

/-- A walk from `d` may go `k` places in the direction given. -/
def reaches (down : Bool) (d : Dest) (k : Nat) : Prop := if down then k ≤ d.1 else d.1 + k < 512

theorem walked_zero (down : Bool) (d : Dest) : walked down d 0 = d := by
  cases down <;> simp [walked]

theorem reaches_zero (down : Bool) (d : Dest) : reaches down d 0 := by
  cases down <;> simp [reaches]

theorem seekNext_none {down : Bool} {d : Dest} (h : seekNext down d = none) : atEnd down d 0 := by
  cases down <;> simp [seekNext, atEnd, dest?, below?] at h ⊢ <;> omega

/-- One place further, the walk is the walk from the next entry. -/
theorem seekNext_some {down : Bool} {d e : Dest} (h : seekNext down d = some e) (j : Nat) :
    walked down e j = walked down d (j + 1) ∧ (reaches down e j ↔ reaches down d (j + 1))
      ∧ (atEnd down e j ↔ atEnd down d (j + 1)) := by
  cases down with
  | true =>
    have he : 0 < d.1 ∧ e.1 = d.1 - 1 := by
      simp [seekNext, dest?, below?] at h
      obtain ⟨h0, _, rfl⟩ := h
      exact ⟨Nat.pos_of_ne_zero fun h => h0 (Fin.ext h), rfl⟩
    simp only [walked, reaches, atEnd, if_true, he.2, Nat.sub_sub, Nat.add_comm 1 j, true_and]
    omega
  | false =>
    have he : e.1 = d.1 + 1 := by
      simp [seekNext, dest?, below?] at h
      obtain ⟨_, rfl⟩ := h
      rfl
    simp only [walked, reaches, atEnd, he, Nat.add_right_comm d.1 1 j, ← Nat.add_assoc]
    simp

/-- A walk with `n` further examinations ends at the first entry that stops it, or else where the count
or the map ends. -/
theorem seekFrom_spec (s : State) (t : SeekTest) (miss down : Bool) (n : Nat) (d : Dest) :
    ∃ k ≤ n, reaches down d k ∧ (∀ j < k, t.holds (s.entry (walked down d j)) = miss)
      ∧ s.seekFrom t miss down n d
        = ⟨t.holds (s.entry (walked down d k)) != miss, walked down d k, n - k⟩
      ∧ (t.holds (s.entry (walked down d k)) = miss → k = n ∨ atEnd down d k) := by
  induction n generalizing d with
  | zero =>
    exact ⟨0, Nat.le_refl 0, reaches_zero down d, nofun, by rw [walked_zero]; rfl, fun _ => .inl rfl⟩
  | succ n ih =>
    by_cases hstop : t.holds (s.entry d) = miss
    · cases hnext : seekNext down d with
      | none =>
        refine ⟨0, Nat.zero_le _, reaches_zero down d, nofun, ?_, fun _ => .inr (seekNext_none hnext)⟩
        rw [walked_zero, State.seekFrom, hnext]
        simp [hstop]
      | some e =>
        obtain ⟨k, hk, hreach, hbefore, hwalk, hend⟩ := ih e
        have hshift := seekNext_some hnext
        refine ⟨k + 1, by omega, (hshift k).2.1.1 hreach, ?_, ?_, ?_⟩
        · intro j hj
          cases j with
          | zero => rwa [walked_zero]
          | succ j =>
            rw [← (hshift j).1]
            exact hbefore j (by omega)
        · rw [← (hshift k).1, State.seekFrom, hnext, Nat.add_sub_add_right]
          simp [hstop, hwalk]
        · rw [← (hshift k).1]
          exact fun h => (hend h).imp (congrArg (· + 1)) (hshift k).2.2.1
    · refine ⟨0, Nat.zero_le _, reaches_zero down d, nofun, ?_, fun h => absurd ?_ hstop⟩
      · rw [walked_zero, State.seekFrom]
        simp [hstop]
      · rwa [walked_zero] at h

theorem binary?_bit (b : Bool) : binary? (if b then 1 else 0) = some b := by cases b <;> rfl

/-- The walk reads the map only. -/
theorem seekFrom_congr {s u : State} (h : ∀ d, s.entry d = u.entry d) (t : SeekTest) (miss down : Bool)
    (n : Nat) (d : Dest) : s.seekFrom t miss down n d = u.seekFrom t miss down n d := by
  induction n generalizing d with
  | zero => simp only [State.seekFrom, h]
  | succ n ih => simp only [State.seekFrom, h, ih]

theorem sourceOrNone?_val (x : Source) : sourceOrNone? x.1 = some (some x) := by
  simp [sourceOrNone?, show x.1 ≠ 0xFFFF by omega]

theorem exec_seek {τ : Nat} {s : State} {o : Order} {d : Dest} {t : SeekTest} {down miss : Bool}
    (h : Serving s o 0x16) (hd : read16 o.payload 0 = d)
    (hdown : read8 o.payload 2 = (if down then 1 else 0))
    (hmiss : read8 o.payload 8 = (if miss then 1 else 0))
    (ht : seekTest? (read8 o.payload 5) (read16 o.payload 6) = some t) {r : SeekEnd}
    (hr : s.seekFrom t miss down (clamp 1 512 (read16 o.payload 3) - 1) d = r) :
    exec (.seek τ) s
      = .next (s.answered τ o .done (flagByte r.stopped ++ be16 r.index.1 ++ be16 r.remaining)) := by
  refine congrArg Host.Outcome.next (serve_quiet h τ (act := serveSeek) ?_)
  change serveSeek o (s.atDesk τ o) = ⟨s.atDesk τ o, _, _⟩
  have hdesk := seekFrom_congr (s := s.atDesk τ o) (u := s) fun _ => rfl
  simp only [serveSeek, hd, hdown, hmiss, ht, dest?_val, binary?_bit, hdesk, hr]

/-- Settles O21: the walk, whose outcome `seekFrom_spec` gives, with the test read from the order. -/
theorem seekWalksToTheFirstStop : Obligations.SeekWalksToTheFirstStop := by
  unfold Obligations.SeekWalksToTheFirstStop
  intro τ s o d test down miss h hd hdown hmiss htest count place meets stops
  have hread : seekTest? (read8 o.payload 5) (read16 o.payload 6) = some test := by
    cases test with
    | sourceIs x =>
      cases x with
      | none => rw [htest.1, htest.2]; rfl
      | some x =>
        rw [htest.1, htest.2]
        simp [seekTest?, sourceOrNone?_val]
    | classIs c => rw [htest.1, htest.2]; simp [seekTest?]
    | locked => rw [htest]; rfl
    | suspect => rw [htest]; rfl
    | pending => rw [htest]; rfl
  have hmeets (e : Entry) : meets e ↔ test.holds e = true := by
    simp only [meets]
    cases test <;> simp [SeekTest.holds, Option.isSome_iff_ne_none]
  have hstops (j : Nat) : stops j ↔ test.holds (s.entry (walked down d j)) ≠ miss := by
    simp only [stops, hmeets]
    change (test.holds (s.entry (walked down d j)) = true ↔ miss = false) ↔ _
    cases test.holds (s.entry (walked down d j)) <;> cases miss <;> simp
  obtain ⟨k, hk, hreach, hbefore, hwalk, hend⟩ := seekFrom_spec s test miss down (count - 1) d
  have hexec := exec_seek (τ := τ) h hd hdown hmiss hread hwalk
  have hcount : 1 ≤ count := Nat.le_max_left ..
  have hleft : count - 1 - k = count - (k + 1) := by omega
  rw [hleft] at hexec
  refine ⟨k, by omega, hreach, fun j hj hs => (hstops j).1 hs (hbefore j hj), ?_⟩
  by_cases hs : test.holds (s.entry (walked down d k)) = miss
  · refine .inr ⟨fun h => (hstops k).1 h hs, (hend hs).imp (by omega) id, ?_⟩
    rw [bne_eq_false_iff_eq.2 hs] at hexec
    exact hexec
  · refine .inl ⟨(hstops k).2 hs, ?_⟩
    rw [bne_iff_ne.2 hs] at hexec
    exact hexec

end Sys2Proof.Machine
end

section
/-! O23: LOCK, UNLOCK and PROTECT (R20 to R22). -/

namespace Sys2Proof.Machine

theorem pairBefore_irrefl (p : WallNo × TileNo) : ¬ pairBefore p p = true := by
  simp [pairBefore]

/-- An ordered tile list names each tile once. -/
theorem FanoutLaw.nodup {s : State} (h : FanoutLaw s) (d : Dest) : (s.entry d).tiles.Nodup :=
  (h.ordered d).imp fun {p q} (hpq : pairBefore p q = true) (e : p = q) =>
    pairBefore_irrefl q (e ▸ hpq)

/-- What has been queued depends on the walls only. -/
theorem Queued.of_walls {s s' t t' : State} {ps : List (WallNo × TileNo)} (h : Queued s t ps)
    (hs : ∀ w, s.wall w = s'.wall w) (ht : ∀ w, t'.wall w = t.wall w) : Queued s' t' ps := by
  intro w
  rw [ht, h w, hs]

theorem wall_of_same {ps : List Part} {s t : State} (h : SameBut ps s t)
    (hp : Part.walls ∉ ps := by decide) (w : WallNo) : t.wall w = s.wall w := by
  have hw : t.walls = s.walls := h .walls hp
  simp only [State.wall, hw]

/-- The entry of a destination is written and the change announced. -/
theorem announced_same (s : State) (d : Dest) (e : Entry) :
    SameBut [.map, .walls] s ((s.setEntry d e).announceDest d) :=
  (setEntry_same s d e).comp (announceDest_same _ d) (by decide) (by decide)

/-- An order whose serving writes one field of the entry of `d` and announces the change. -/
theorem serve_announced {s : State} {o : Order} {code : Byte} (h : Serving s o code) (τ : Nat)
    {act : Order → State → Answer} {d : Dest} {e : Entry} {v : Verdict} {p : List Byte}
    (hl : FanoutLaw s) (he : e.tiles = (s.entry d).tiles)
    (ha : act o (s.atDesk τ o) = ⟨((s.atDesk τ o).setEntry d e).announceDest d, v, p⟩) :
    ∃ t, Host.Outcome.next (s.serve τ code act) = (.next t : Host.Outcome State Fault Refusal)
      ∧ Served s t τ o v p [] [.map, .walls] ∧ t.map = (s.setEntry d e).map
      ∧ Queued s t (s.entry d).tiles := by
  obtain ⟨t, ht, hserved, hsame⟩ := serve_served h τ ha (announced_same _ d e)
  refine ⟨t, congrArg _ ht, hserved, ?_, ?_⟩
  · rw [show t.map = _ from hsame .map (by decide)]
    exact announceDest_same _ d .map (by decide)
  · have hq := queueTiles_queued ((s.atDesk τ o).setEntry d e) (hl.nodup d)
    rw [← he] at hq ⊢
    refine hq.of_walls (fun _ => rfl) fun w => ?_
    rw [wall_of_same hsame, State.announceDest, State.setEntry_entry_self]

section
variable {τ : Nat} {s : State} {o : Order} {d : Dest} {p : PanelNo}

theorem serveLock_atDesk (hd : read16 o.payload 0 = d) (hp : read8 o.payload 2 = p)
    (hc : s.accessCheck p d none = none) :
    serveLock o (s.atDesk τ o) = ⟨(s.atDesk τ o).setLock d (some p), .done, []⟩ := by
  simp only [serveLock, hd, hp, dest?_val, panel?_val, atDesk_accessCheck, hc, answer]

theorem serveUnlock_atDesk (hd : read16 o.payload 0 = d) (hp : read8 o.payload 2 = p) :
    serveUnlock o (s.atDesk τ o) = match (s.entry d).lock with
      | none => ⟨s.atDesk τ o, .done, []⟩
      | some q =>
        if q = p ∨ ((s.panel p).enabled = true ∧ (s.panel p).level = 0) then
          ⟨(s.atDesk τ o).setLock d none, .done, []⟩
        else ⟨s.atDesk τ o, .locked, []⟩ := by
  simp only [serveUnlock, hd, hp, dest?_val, panel?_val]
  rfl

theorem serveProtect_atDesk {l : Level} (hd : read16 o.payload 0 = d) (hp : read8 o.payload 2 = p)
    (hl : read8 o.payload 3 = l) (hc : s.accessCheck p d none = none) :
    serveProtect o (s.atDesk τ o) = ⟨(s.atDesk τ o).setProtect d (max l (s.panel p).level), .done,
      be8 (max l (s.panel p).level).1⟩ := by
  simp only [serveProtect, hd, hp, hl, dest?_val, panel?_val, level?_val, atDesk_accessCheck, hc]
  rfl

theorem setLock_same_value {v : Option PanelNo} (h : (s.entry d).lock = v) : s.setLock d v = s :=
  if_pos h

theorem setLock_new_value {v : Option PanelNo} (h : (s.entry d).lock ≠ v) :
    s.setLock d v = (s.setEntry d { s.entry d with lock := v }).announceDest d := if_neg h

theorem setProtect_same_value {v : Level} (h : (s.entry d).protect = v) : s.setProtect d v = s :=
  if_pos h

theorem setProtect_new_value {v : Level} (h : (s.entry d).protect ≠ v) :
    s.setProtect d v = (s.setEntry d { s.entry d with protect := v }).announceDest d := if_neg h

end

/-- Settles O23: each order writes its field and announces the change, or finds nothing to change. -/
theorem lockUnlockAndProtectWriteTheEntry : Obligations.LockUnlockAndProtectWriteTheEntry := by
  unfold Obligations.LockUnlockAndProtectWriteTheEntry
  intro τ s o d p hlaw hd hp
  refine ⟨fun h hc => ?lock, fun h => ?unlock, fun asked h hasked hc => ?protect⟩
  case lock =>
    have ha := serveLock_atDesk (τ := τ) hd hp hc
    split
    · next heq =>
      rw [setLock_same_value (s := s.atDesk τ o) heq] at ha
      exact congrArg Host.Outcome.next (serve_quiet h τ ha)
    · next hne =>
      rw [setLock_new_value (s := s.atDesk τ o) hne] at ha
      exact serve_announced h τ hlaw rfl ha
  case unlock =>
    have ha := serveUnlock_atDesk (τ := τ) (s := s) hd hp
    split
    · next hl =>
      simp only [hl] at ha
      exact congrArg Host.Outcome.next (serve_quiet h τ ha)
    · next q hl =>
      simp only [hl] at ha
      split
      · next hmay =>
        have hne : (s.entry d).lock ≠ none := by simp [hl]
        rw [if_pos hmay, setLock_new_value (s := s.atDesk τ o) hne] at ha
        exact serve_announced h τ hlaw rfl ha
      · next hmay =>
        rw [if_neg hmay] at ha
        exact congrArg Host.Outcome.next (serve_quiet h τ ha)
  case protect =>
    intro l
    have ha := serveProtect_atDesk (τ := τ) hd hp hasked hc
    rw [show max asked (s.panel p).level = l from max_def_lt ..] at ha
    split
    · next heq =>
      rw [setProtect_same_value (s := s.atDesk τ o) heq.symm] at ha
      exact congrArg Host.Outcome.next (serve_quiet h τ ha)
    · next hne =>
      rw [setProtect_new_value (s := s.atDesk τ o) (Ne.symm hne)] at ha
      exact serve_announced h τ hlaw rfl ha

end Sys2Proof.Machine
end

section
/-! O22: DEST_SET (R19) and the tally at a class change (R110). -/

namespace Sys2Proof.Machine

/-! ### A destination in use -/

theorem any_toList_iff {α : Type} {n : Nat} (p : α → Bool) (v : Vector α n) :
    v.toList.any p = true ↔ ∃ i : Fin n, p v[i] = true := by
  simp only [List.any_eq_true, Vector.mem_toList_iff, Vector.mem_iff_getElem]
  constructor
  · rintro ⟨x, ⟨i, hi, rfl⟩, hx⟩
    exact ⟨⟨i, hi⟩, hx⟩
  · rintro ⟨i, hi⟩
    exact ⟨_, ⟨i.1, i.2, rfl⟩, hi⟩

theorem inSalvo_iff (s : State) (d : Dest) :
    s.inSalvo d = true
      ↔ ∃ k, (s.slot k).state ≠ .empty ∧ ∃ p ∈ (s.slot k).entries, p.1 = d := by
  refine (any_toList_iff _ _).trans (exists_congr fun k => ?_)
  change ((s.slot k).state != .empty && (s.slot k).entries.any (fun p => p.1 == d)) = true ↔ _
  simp

theorem recorderOn_iff (s : State) (d : Dest) :
    s.recorderOn d = true ↔ ∃ c, (s.chan c).state ≠ .idle ∧ (s.chan c).bound = some d := by
  refine (any_toList_iff _ _).trans (exists_congr fun c => ?_)
  change ((s.chan c).state != .idle && (s.chan c).bound == some d) = true ↔ _
  simp

theorem inUse_iff (s : State) (d : Dest) :
    s.inUse d = true ↔ (s.entry d).pending ≠ none ∨ (s.entry d).next ≠ none
      ∨ (∃ k, (s.slot k).state ≠ .empty ∧ ∃ p ∈ (s.slot k).entries, p.1 = d)
      ∨ ∃ k, (s.chan k).state ≠ .idle ∧ (s.chan k).bound = some d := by
  simp only [State.inUse, Bool.or_eq_true, inSalvo_iff, recorderOn_iff, Option.isSome_iff_ne_none,
    or_assoc]

/-! ### A count that moves, and the colour that follows it -/

/-- The tiles that show a source, wall by wall, each once. -/
theorem showing_nodup (s : State) (x : Source) :
    ((List.finRange 8).flatMap fun w => (s.showing w x).map fun i => (w, i)).Nodup := by
  refine List.nodup_flatMap.2 ⟨fun w _ => (select_nodup _ _).map fun i j h => (Prod.mk.inj h).2, ?_⟩
  refine (List.nodup_finRange 8).imp fun {a b} hab p ha hb => hab ?_
  obtain ⟨i, _, rfl⟩ := List.mem_map.1 ha
  obtain ⟨j, _, hj⟩ := List.mem_map.1 hb
  exact (congrArg Prod.fst hj).symm

theorem Queued.nil_of_walls {s t : State} (h : ∀ w, t.wall w = s.wall w) : Queued s t [] := by
  intro w
  rw [h w]
  simp [tilesOn]

/-- Which tiles show a source depends on the walls and on the sources the map carries. -/
theorem showing_congr {s u : State} (hw : ∀ w, u.wall w = s.wall w)
    (hsrc : ∀ d, (u.entry d).source = (s.entry d).source) (w : WallNo) (x : Source) :
    u.showing w x = s.showing w x := by
  have hshown (k : TileKind) : u.shown k = s.shown k := by
    cases k with
    | dest d => exact hsrc d
    | invalid => rfl
    | fixed y => rfl
  simp only [State.showing, hshown, hw]

/-- What a move of counts says is about the counts and the walls only. -/
theorem TallyMoved.of_same {s t u : State} {x : Option Source} {f : Tally → Tally}
    (h : TallyMoved s t x f) (ht : u.tally = t.tally) (hw : u.walls = t.walls) :
    TallyMoved s u x f := by
  cases x with
  | none => exact ⟨ht.trans h.1, hw.trans h.2⟩
  | some y =>
    obtain ⟨hself, hother, hq⟩ := h
    have htally (z : Source) : u.tallyOf z = t.tallyOf z := by simp only [State.tallyOf, ht]
    have hwall (w : WallNo) : u.wall w = t.wall w := by simp only [State.wall, hw]
    exact ⟨(htally y).trans hself, fun z hz => (htally z).trans (hother z hz),
      hq.of_walls (fun _ => rfl) hwall⟩

/-- The counts move from a state as from another with the same counts, walls and sources. -/
theorem TallyMoved.from_same {s t u : State} {x : Option Source} {f : Tally → Tally}
    (h : TallyMoved u t x f) (ht : u.tally = s.tally) (hw : u.walls = s.walls)
    (hsrc : ∀ d, (u.entry d).source = (s.entry d).source) : TallyMoved s t x f := by
  cases x with
  | none => exact ⟨h.1.trans ht, h.2.trans hw⟩
  | some y =>
    obtain ⟨hself, hother, hq⟩ := h
    have htally (z : Source) : u.tallyOf z = s.tallyOf z := by simp only [State.tallyOf, ht]
    have hwall (w : WallNo) : u.wall w = s.wall w := by simp only [State.wall, hw]
    rw [htally] at hself hq
    simp only [htally] at hother
    simp only [fun w => showing_congr hwall hsrc w y] at hq
    exact ⟨hself, hother, hq.of_walls hwall fun _ => rfl⟩

/-- The colour comparison after the counts of `y` have moved as `f` says. -/
theorem compareColour_moved {s u : State} {y : Source} {f : Tally → Tally}
    (hself : u.tallyOf y = f (s.tallyOf y)) (hcol : (f (s.tallyOf y)).colour = (s.tallyOf y).colour)
    (hother : ∀ z, z ≠ y → u.tallyOf z = s.tallyOf z) (hwall : ∀ w, u.wall w = s.wall w)
    (hshow : ∀ w, u.showing w y = s.showing w y) : TallyMoved s (u.compareColour (some y)) (some y) f := by
  by_cases hc : colourOf (f (s.tallyOf y)) = (s.tallyOf y).colour
  · have hu : u.compareColour (some y) = u := if_pos (by rw [hself, hcol, hc])
    rw [hu]
    refine ⟨?_, hother, ?_⟩
    · rw [hself, hc, ← hcol]
    · rw [if_pos hc]
      exact Queued.nil_of_walls hwall
  · have hu : u.compareColour (some y)
        = (u.setTally y { f (s.tallyOf y) with colour := colourOf (f (s.tallyOf y)) }).announceSource y := by
      rw [← hself]
      exact if_neg (by rwa [hself, hcol])
    rw [hu]
    have htally (z : Source) := congrArg (·[z]) (announceSource_same (u.setTally y
      { f (s.tallyOf y) with colour := colourOf (f (s.tallyOf y)) }) y .tally (by decide))
    refine ⟨(htally y).trans (State.setTally_tallyOf_self ..), fun z hz => (htally z).trans
      ((State.setTally_tallyOf_of_ne _ _ _ hz).trans (hother z hz)), ?_⟩
    rw [if_neg hc]
    simp only [← hshow]
    exact (queueTiles_queued (u.setTally y _) (showing_nodup u y)).of_walls hwall fun _ => rfl

/-- What a class change does to the counts of the source carried (R110). -/
def classMove (old new : DestClass) (r : Tally) : Tally :=
  { r with
    program := r.program + (if new = .program then 1 else 0) - (if old = .program then 1 else 0)
    preview := r.preview + (if new = .preview then 1 else 0) - (if old = .preview then 1 else 0) }

theorem bumpClass_other (s : State) (c : DestClass) (up : Bool) {y z : Source} (h : z ≠ y) :
    (s.bumpClass c up (some y)).tallyOf z = s.tallyOf z := by
  cases c with
  | unclassed => rfl
  | program => exact State.setTally_tallyOf_of_ne _ _ _ h
  | preview => exact State.setTally_tallyOf_of_ne _ _ _ h

theorem bumpClass_self (s : State) {old new : DestClass} (h : new ≠ old) (y : Source) :
    ((s.bumpClass old false (some y)).bumpClass new true (some y)).tallyOf y
      = classMove old new (s.tallyOf y) := by
  cases old <;> cases new <;>
    simp [State.bumpClass, classCounter, State.bump, Tally.bump, classMove] at h ⊢

theorem bumpClass_none (s : State) (c : DestClass) (up : Bool) : s.bumpClass c up none = s := by
  cases c <;> rfl

theorem tallyClass_moved (s : State) {old new : DestClass} (h : new ≠ old) (x : Option Source) :
    TallyMoved s (s.tallyClass old new x) x (classMove old new) := by
  cases x with
  | none =>
    rw [State.tallyClass, bumpClass_none, bumpClass_none]
    exact ⟨rfl, rfl⟩
  | some y =>
    have hsame := (bumpClass_same s old false (some y)).trans (bumpClass_same _ new true (some y))
    exact compareColour_moved (bumpClass_self s h y) rfl
      (fun z hz => (bumpClass_other _ new true hz).trans (bumpClass_other s old false hz))
      (wall_of_same hsame)
      fun w => showing_congr (wall_of_same hsame) 
        (fun d => congrArg Entry.source (entry_of_same hsame (c := d))) w y

/-! ### The order -/

/-- The class and the group of a destination are written. -/
def State.writeClass (s : State) (d : Dest) (c : DestClass) (g : Group) : State :=
  s.setEntry d { s.entry d with cls := c, group := g }

theorem writeClass_same (s : State) (d : Dest) (c : DestClass) (g : Group) :
    SameBut [.map] s (s.writeClass d c g) := setEntry_same s d _

theorem writeClass_source (s : State) (d : Dest) (c : DestClass) (g : Group) (z : Dest) :
    ((s.writeClass d c g).entry z).source = (s.entry z).source := by
  rw [State.writeClass, State.setEntry_entry]
  split
  · next hz => rw [hz]
  · rfl

theorem serveDestSet_atDesk {τ : Nat} {s : State} {o : Order} {d : Dest} {c : DestClass} {g : Group}
    (hd : read16 o.payload 0 = d) (hc : read8 o.payload 2 = c.code)
    (hg : read8 o.payload 3 = groupCode g) :
    serveDestSet o (s.atDesk τ o) =
      if g ≠ (s.entry d).group ∧ s.inUse d = true then ⟨s.atDesk τ o, .inUse, []⟩
      else if c = (s.entry d).cls then ⟨(s.atDesk τ o).writeClass d c g, .done, []⟩
      else ⟨((s.atDesk τ o).writeClass d c g).tallyClass (s.entry d).cls c (s.entry d).source,
        .done, []⟩ := by
  simp only [serveDestSet, hd, hc, hg, dest?_val, class?_code, group?_code]
  change ite _ _ (Answer.mk (ite _ _ _) _ _) = _
  rw [apply_ite (fun u => Answer.mk u .done [])]
  rfl

/-- Settles O22: the refusal, the write that keeps the class, and the write that moves the tally. -/
theorem destSetWritesClassAndGroup : Obligations.DestSetWritesClassAndGroup := by
  unfold Obligations.DestSetWritesClassAndGroup
  intro τ s o d c g h hd hc hg e held
  have ha := serveDestSet_atDesk (τ := τ) (s := s) hd hc hg
  have hiff : (g ≠ e.group ∧ s.inUse d = true) ↔ (g ≠ e.group ∧ held) :=
    and_congr_right' (inUse_iff s d)
  refine ⟨fun hheld => ?refused, fun hheld => ?written⟩
  case refused =>
    rw [if_pos (hiff.2 hheld)] at ha
    exact congrArg Host.Outcome.next (serve_quiet h τ ha)
  case written =>
    rw [if_neg (mt hiff.1 hheld)] at ha
    have hwrite := writeClass_same (s.atDesk τ o) d c g
    by_cases hcls : c = e.cls
    · rw [if_pos hcls] at ha
      obtain ⟨t, ht, hserved, hsame⟩ :=
        serve_served h τ ha (hwrite.mono (qs := [.map, .tally, .walls]) (by decide))
      exact ⟨t, congrArg _ ht, hserved, hsame .map (by decide),
        fun _ => ⟨hsame .tally (by decide), hsame .walls (by decide)⟩, fun hne => absurd hcls hne⟩
    · rw [if_neg hcls] at ha
      have hmove := tallyClass_same ((s.atDesk τ o).writeClass d c g) e.cls c e.source
      have hmoved := tallyClass_moved ((s.atDesk τ o).writeClass d c g) hcls e.source
      have hfrom := hmoved.from_same (s := s) rfl rfl (writeClass_source (s.atDesk τ o) d c g)
      obtain ⟨t, ht, hserved, hsame⟩ := serve_served h τ ha (ps := [.map, .tally, .walls])
        (hwrite.comp hmove (by decide) (by decide))
      exact ⟨t, congrArg _ ht, hserved, (hsame .map (by decide)).trans (hmove .map (by decide)),
        fun heq => absurd heq hcls, fun _ => hfrom.of_same (hsame .tally (by decide))
          (hsame .walls (by decide))⟩

end Sys2Proof.Machine
end

section
/-! O54: BLOCK_RESET of SALVOS, PANELS and WALLS (R98, R13, R134). -/

namespace Sys2Proof.Machine

/-! ### The order -/

section
variable {s : State} {o : Order} {b : Block}

theorem blockOf_eq (h : o.formed = true) (hb : block? (read8 o.payload 0) (read8 o.payload 1) = some b) :
    blockOf o = some b := by
  rw [blockOf, if_pos h, hb]

/-- A BLOCK_RESET is served in the row of the block it names as an order of one code. -/
theorem serveBlock_eq (h : Serving s o 0x58) (τ : Nat)
    (hb : block? (read8 o.payload 0) (read8 o.payload 1) = some b) {these : Block → Bool}
    (hm : these b = true) : s.serveBlock τ these = s.serve τ 0x58 serveBlockReset := by
  rw [serve_front h, State.serveBlock, serveIf_front h.toFront τ _ _
    (by simp [blockOrder, h.code, blockOf_eq h.formed hb, hm])]
  simp only [ifFormed, h.formed, if_true]

theorem serveBlockReset_atDesk {τ : Nat} (h : Serving s o 0x58)
    (hb : block? (read8 o.payload 0) (read8 o.payload 1) = some b) :
    serveBlockReset o (s.atDesk τ o) = ⟨(s.atDesk τ o).resetBlock b, .done, blockPayload b⟩ := by
  simp only [serveBlockReset, blockOf_eq h.formed hb]

end

/-! ### One wall, or all -/

theorem blockReset_blockReset (r : Wall) : r.blockReset.blockReset = r.blockReset := by
  simp [Wall.blockReset, lineTail, List.take_take]

theorem foldl_resetWall_wall (l : List WallNo) (s : State) (v : WallNo) :
    (l.foldl State.resetWall s).wall v = if v ∈ l then (s.wall v).blockReset else s.wall v := by
  induction l generalizing s with
  | nil => rfl
  | cons w l ih =>
    rw [List.foldl_cons, ih, resetWall_wall]
    by_cases hv : v = w
    · subst hv
      simp [blockReset_blockReset]
    · simp [hv]

theorem foldl_resetWall_entry (l : List WallNo) (s : State) (d : Dest) :
    (l.foldl State.resetWall s).entry d
      = { s.entry d with tiles := (s.entry d).tiles.filter (fun p => p.1 ∉ l) } := by
  induction l generalizing s with
  | nil => simp
  | cons w l ih =>
    have hpair (p : WallNo × TileNo) : (decide (p.1 ∉ l) && p.1 != w) = decide (p.1 ∉ w :: l) := by
      simp [bne, beq_eq_decide, Bool.and_comm]
    rw [List.foldl_cons, ih, resetWall_entry]
    simp only [List.filter_filter, hpair]

theorem foldl_resetWall_counts (l : List WallNo) (s : State) :
    (l.foldl State.resetWall s).map.dests = s.map.dests
      ∧ (l.foldl State.resetWall s).map.sources = s.map.sources := by
  induction l generalizing s with
  | nil => exact ⟨rfl, rfl⟩
  | cons w l ih => exact ih (s.resetWall w)

/-- The walls that a WALLS block reset resets. -/
def wallsNamed : Option WallNo → List WallNo
  | some w => [w]
  | none => List.finRange 8

theorem resetWalls_eq (s : State) (w : Option WallNo) :
    s.resetWalls w = (wallsNamed w).foldl State.resetWall s := by cases w <;> rfl

/-- The wall byte of an order names one wall, or all of them. -/
theorem block?_walls {wall : Nat} (h : wall < 8 ∨ wall = 0xFF) :
    ∃ w, block? 2 wall = some (.walls w) ∧ blockPayload (.walls w) = be8 2 ++ be8 wall
      ∧ ∀ v, v ∈ wallsNamed w ↔ wall = 0xFF ∨ wall = v.1 := by
  rcases h with hlt | rfl
  · have hne : wall ≠ 0xFF := by omega
    refine ⟨some ⟨wall, hlt⟩, ?_, rfl, fun v => ?_⟩
    · simp [block?, hne, wall?, below?, hlt]
    · simp [wallsNamed, hne, Fin.ext_iff, eq_comm]
  · exact ⟨none, rfl, rfl, fun v => by simp [wallsNamed]⟩

/-- Settles O54. -/
theorem blockResetsOfSalvosPanelsAndWalls : Obligations.BlockResetsOfSalvosPanelsAndWalls := by
  unfold Obligations.BlockResetsOfSalvosPanelsAndWalls
  intro τ s o h block wall
  refine ⟨fun hblock => ?salvos, fun hblock => ?panels, fun hblock hwall => ?walls⟩
  case salvos =>
    have hb : block? (read8 o.payload 0) (read8 o.payload 1) = some .salvos :=
      congrArg (block? · (read8 o.payload 1)) hblock
    exact congrArg Host.Outcome.next ((serveBlock_eq h τ hb rfl).trans
      (serve_answer h τ (serveBlockReset_atDesk h hb) h.owed))
  case panels =>
    have hb : block? (read8 o.payload 0) (read8 o.payload 1) = some .panels :=
      congrArg (block? · (read8 o.payload 1)) hblock
    exact congrArg Host.Outcome.next ((serveBlock_eq h τ hb rfl).trans
      (serve_answer h τ (serveBlockReset_atDesk h hb) h.owed))
  case walls =>
    obtain ⟨w, hw, hpay, hmem⟩ := block?_walls hwall
    have hb : block? (read8 o.payload 0) (read8 o.payload 1) = some (.walls w) :=
      (congrArg (block? · wall) hblock).trans hw
    have hreset := resetWalls_same (s.atDesk τ o) w
    have ha := serveBlockReset_atDesk (τ := τ) h hb
    obtain ⟨t, ht, hserved, hsame⟩ := serve_served h τ ha hreset
    have hmap : t.map = ((s.atDesk τ o).resetWalls w).map := hsame .map (by decide)
    rw [hpay] at hserved
    refine ⟨t, congrArg _ ((serveBlock_eq h τ hb rfl).trans ht), hserved, ?_, ?_, fun v => ?_, fun d => ?_⟩
    · rw [hmap, resetWalls_eq]
      exact (foldl_resetWall_counts _ _).1
    · rw [hmap, resetWalls_eq]
      exact (foldl_resetWall_counts _ _).2
    · rw [wall_of_same hsame]
      change ((s.atDesk τ o).resetWalls w).wall v = _
      rw [resetWalls_eq, foldl_resetWall_wall]
      simp only [hmem]
      rfl
    · rw [entry_of_same hsame]
      change ((s.atDesk τ o).resetWalls w).entry d = _
      rw [resetWalls_eq, foldl_resetWall_entry]
      simp only [hmem]
      rfl

end Sys2Proof.Machine
end

section
/-! O25, O26 and O27: what begins a frame of a reference group, and what the interface and the recorder
unit owe when the event ends (R28, R31 to R42). -/

namespace Sys2Proof.Machine

/-! ### The end of an event -/

theorem foldl_raise_eq (l : List Notice) (s : State) :
    l.foldl State.raise s = { s with control := l.foldl Control.raise s.control } := by
  induction l generalizing s with
  | nil => rfl
  | cons n l ih => rw [List.foldl_cons, ih]; rfl

theorem flushHigh_eq_paid (s : State) : s.flushHigh = s.paid := by
  rw [State.flushHigh, foldl_raise_eq]
  rfl

/-- A part that owes nothing is left as it is. -/
theorem paid_of_owed {s : State} (h : s.recorder.high = []) : s.paid = s := by
  rw [← flushHigh_eq_paid, flushHigh_nil h]

/-! Paying touches the interface and the debt alone. -/

section
variable (s : State)

theorem paid_tally : s.paid.tally = s.tally := rfl
theorem paid_walls : s.paid.walls = s.walls := rfl
theorem paid_queue : s.paid.recorder.queue = s.recorder.queue := rfl
theorem paid_line : s.paid.recorder.line = s.recorder.line := rfl
theorem paid_chan (c : ChannelNo) : s.paid.chan c = s.chan c := rfl
theorem paid_grp (g : Group) : s.paid.grp g = s.grp g := rfl

end

theorem clock_now_eq (s : State) : s.clock s.now = s := by
  simp [State.clock]

theorem event_eq_paid {s : State} (h : s.pins.reset = false) (τ : Nat) (f : State → State) :
    s.event τ f = (f (s.clock τ)).paid := by
  rw [State.event, h, if_neg Bool.false_ne_true, flushHigh_eq_paid]

/-- An event at the time that the state holds. -/
theorem event_now_eq_paid {s : State} (h : s.pins.reset = false) (f : State → State) :
    s.event s.now f = (f s).paid := by
  rw [event_eq_paid h, clock_now_eq]

/-- The step of an order whatever its serving owes: the MARKS_HIGH go before the reply. -/
theorem serve_paid {s : State} {o : Order} {code : Byte} (h : Serving s o code) (τ : Nat)
    {act : Order → State → Answer} {t : State} {v : Verdict} {p : List Byte}
    (ha : act o (s.atDesk τ o) = ⟨t, v, p⟩) :
    s.serve τ code act = { t.paid with control := t.paid.control.answered o v p } := by
  rw [serve_front h, show act o ((s.clock τ).beginServing o) = _ from ha, State.finishServing,
    flushHigh_eq_paid]
  rfl

/-! ### A boundary -/

theorem handOn_eq_followed (s : State) (b : Boundary) (order : FollowerOrder) :
    s.handOn b order = s.followed b order := by
  cases order <;> simp only [State.handOn, State.followed, List.foldl_cons, List.foldl_nil]

theorem followed_same (s : State) (b : Boundary) (order : FollowerOrder) :
    SameBut followerParts s (s.followed b order) :=
  handOn_eq_followed s b order ▸ handOn_same s b order

theorem setGrp_setGrp (s : State) (g : Group) (a b : GroupRec) :
    (s.setGrp g a).setGrp g b = s.setGrp g b := by
  simp [State.setGrp]

theorem grp_of_same {ps : List Part} {s t : State} (h : SameBut ps s t)
    (hp : Part.groups ∉ ps := by decide) (g : Group) : t.grp g = s.grp g := by
  have hg : t.groups = s.groups := h .groups hp
  simp only [State.grp, hg]

section
variable {s : State} {g : Group} {q : Geometry} {b : Nat}

theorem switchTicks_of_active (h : (s.grp g).active = some q) : s.switchTicks g = q.s * q.h := by
  rw [State.switchTicks, h]
  rfl

theorem since_of_last (h : (s.grp g).last = some b) : s.since g = s.now - b := by
  rw [State.since, h]

theorem GroupRec.tolerance_of_active {r : GroupRec} (h : r.active = some q) : r.tolerance = q.tol := by
  rw [GroupRec.tolerance, h]

theorem GroupRec.frameTicks_of_active {r : GroupRec} (h : r.active = some q) :
    r.frameTicks = q.l * q.h := by
  rw [GroupRec.frameTicks, h]
  rfl

theorem GroupRec.expected_of_last {r : GroupRec} (h : r.last = some b) :
    r.expected = b + r.period := by
  rw [GroupRec.expected, h]
  rfl

/-- P after an on-time edge, written out (R35, R40, R56). -/
theorem GroupRec.filtered_of_active {r : GroupRec} (h : r.active = some q) (hl : r.last = some b)
    (τ : Nat) : r.filtered τ =
      (r.period + (((max (q.l * q.h / 2) (min (2 * (q.l * q.h)) (τ - b)) : Nat) - r.period : Int)
        / (2 ^ q.kref : Nat))).toNat := by
  rw [GroupRec.filtered, h, hl]
  rfl

/-- The boundary of a group with a geometry: the frame begins, and the followers act. -/
theorem boundary_eq_followed (h : (s.grp g).active = some q) (time : Nat) (state : RefState) (p : Nat)
    (k : Option RefKind) (order : FollowerOrder) :
    s.boundary g time state p false k order
      = (s.frameBegins g q time state p k).1.followed (s.frameBegins g q time state p k).2 order := by
  have hs := switchTicks_of_active h
  unfold State.boundary State.frameBegins GroupRec.open
  rw [hs]
  cases hst : (s.grp g).staged <;> cases k <;>
    simp only [h, hst, handOn_eq_followed, State.raiseRef, State.setGrp_grp_self] <;> rfl

/-- The frame that begins at a boundary has the state that its kind gives. -/
theorem frameBegins_state (time : Nat) (state : RefState) (p : Nat) (k : Option RefKind) :
    (((s.frameBegins g q time state p k).1).grp g).state = state := by
  unfold State.frameBegins
  cases k <;> simp

/-- The boundary that enables a group: its first frame has the count 0 (R32). -/
theorem enableGroup_eq_followed (q : Geometry) (order : FollowerOrder) :
    let r : GroupRec :=
      { state := .freewheel, active := some q, staged := none, period := q.l * q.h, frame := 0,
        last := some s.now }
    s.enableGroup g q order = ((s.setGrp g r).raise (refNotice g .start r)).followed
      { group := g, frame := 0, time := s.now, geometry := q, applied := false,
        oldSwitch := q.s * q.h } order := by
  intro r
  unfold State.enableGroup State.boundary
  rw [switchTicks_of_active (q := q) (by rw [State.setGrp_grp_self])]
  simp only [State.setGrp_grp_self, GroupRec.open, setGrp_setGrp, handOn_eq_followed, State.raiseRef]
  rfl

/-! ### TOLERANCE_EXPIRY and FREEWHEEL_BOUNDARY (R37, R38) -/

theorem exec_toleranceExpiry (order : FollowerOrder) (hr : s.pins.reset = false)
    (hq : (s.grp g).active = some q) (hb : (s.grp g).last = some b) (hl : (s.grp g).state = .locked) :
    let x := (s.clock (b + (s.grp g).period + q.tol)).frameBegins g q (b + (s.grp g).period + q.tol)
      .freewheel (s.grp g).period (some .loss)
    exec (.toleranceExpiry g order) s = .next (x.1.followed x.2 order).paid := by
  intro x
  change execToleranceExpiry g order s = _
  rw [execToleranceExpiry, if_pos hl, event_now_eq_paid hr, State.expireTolerance,
    GroupRec.expected_of_last hb, GroupRec.tolerance_of_active hq,
    boundary_eq_followed (s := s.clock _) hq]

theorem exec_freewheelBoundary (order : FollowerOrder) (hr : s.pins.reset = false)
    (hq : (s.grp g).active = some q) (hb : (s.grp g).last = some b)
    (hf : (s.grp g).state = .freewheel) :
    let x := (s.clock (b + (s.grp g).period)).frameBegins g q (b + (s.grp g).period) .freewheel
      (s.grp g).period none
    exec (.freewheelBoundary g order) s = .next (x.1.followed x.2 order).paid := by
  intro x
  change execFreewheelBoundary g order s = _
  rw [execFreewheelBoundary, if_pos hf, event_now_eq_paid hr, State.freewheel,
    GroupRec.expected_of_last hb, boundary_eq_followed (s := s.clock _) hq]

/-! ### REF_EDGE (R35 to R41) -/

/-- An edge whose group has not run out of its tolerance is judged as it arrives. -/
theorem exec_refEdge (τ : Nat) (order : FollowerOrder) (hr : s.pins.reset = false)
    (hx : (s.grp g).state = .locked →
      max s.now τ ≤ (s.grp g).expected + (s.grp g).tolerance) :
    exec (.refEdge τ g order) s = .next (((s.clock τ).edge g order).paid) := by
  change execRefEdge τ g order s = _
  have hkeep : s.expireBefore τ g order = s :=
    if_neg fun h => Nat.not_lt.2 (hx h.1) h.2
  rw [execRefEdge, hkeep, event_eq_paid hr]

/-- The expiry of the tolerance leaves its group in FREEWHEEL. -/
theorem expireTolerance_state (hq : (s.grp g).active = some q) (order : FollowerOrder) :
    ((s.expireTolerance g order).paid.grp g).state = .freewheel := by
  rw [paid_grp, State.expireTolerance, boundary_eq_followed (s := s.clock _) hq,
    grp_of_same (followed_same _ _ order)]
  exact frameBegins_state ..

/-- An edge in LOCKED after E + T does what it does after the expiry. -/
theorem exec_refEdge_late {τ : Nat} (order : FollowerOrder) (hr : s.pins.reset = false)
    (hq : (s.grp g).active = some q) (hl : (s.grp g).state = .locked)
    (hx : (s.grp g).expected + (s.grp g).tolerance < max s.now τ) :
    ∃ v, exec (.toleranceExpiry g order) s = .next v
      ∧ exec (.refEdge τ g order) s = exec (.refEdge τ g order) v := by
  have hev := event_now_eq_paid hr fun s => s.expireTolerance g order
  refine ⟨(s.expireTolerance g order).paid, ?_, ?_⟩
  · change execToleranceExpiry g order s = _
    rw [execToleranceExpiry, if_pos hl, hev]
  · have hpast : s.expireBefore τ g order = (s.expireTolerance g order).paid :=
      (if_pos ⟨hl, hx⟩).trans hev
    have hdone : (s.expireTolerance g order).paid.expireBefore τ g order
        = (s.expireTolerance g order).paid :=
      if_neg fun h => absurd ((expireTolerance_state hq order).symm.trans h.1) (by decide)
    change execRefEdge τ g order s = execRefEdge τ g order _
    rw [execRefEdge, execRefEdge, hpast, hdone]

end

/-- Settles O27. -/
theorem expiryAndFreewheelTakeTheirBoundaries : Obligations.ExpiryAndFreewheelTakeTheirBoundaries := by
  unfold Obligations.ExpiryAndFreewheelTakeTheirBoundaries
  exact fun g order s q b hr _ hq hb =>
    ⟨exec_toleranceExpiry order hr hq hb, exec_freewheelBoundary order hr hq hb⟩

/-- Settles O26: the states of the group and, in LOCKED, the place of the edge in the window. -/
theorem referenceEdgeIsJudgedByItsGroup : Obligations.ReferenceEdgeIsJudgedByItsGroup := by
  unfold Obligations.ReferenceEdgeIsJudgedByItsGroup
  intro τ g order s q b hr howed
  refine ⟨fun hd => ?disabled, fun hq hb => ⟨fun hl he => ?early, fun hl he ht => ?onTime,
    fun hf ht => ?recaptured, fun hf ht => ?kept, fun hl ht => ?late⟩⟩
  case disabled =>
    rw [exec_refEdge τ order hr (by simp [hd])]
    have hedge : (s.clock τ).edge g order = s.clock τ := by
      rw [State.edge, State.clock_grp, hd]
    rw [hedge, paid_of_owed (s := s.clock τ) howed]
    rfl
  all_goals
    have hE := GroupRec.expected_of_last hb
    have hT := GroupRec.tolerance_of_active hq
  case early =>
    have hle : (s.clock τ).now ≤ b + (s.grp g).period + q.tol := by omega
    rw [exec_refEdge τ order hr fun _ => by rw [hE, hT]; exact hle, State.edge, State.clock_grp, hl]
    simp only [State.edgeLocked, State.clock_grp, hE, hT, if_pos he,
      boundary_eq_followed (s := s.clock τ) hq, GroupRec.frameTicks_of_active hq]
  case onTime =>
    rw [exec_refEdge τ order hr fun _ => by rw [hE, hT]; exact ht, State.edge, State.clock_grp, hl]
    simp only [State.edgeLocked, State.clock_grp, hE, hT, if_neg (Nat.not_lt.2 he),
      boundary_eq_followed (s := s.clock τ) hq, GroupRec.filtered_of_active hq hb]
  case recaptured =>
    rw [exec_refEdge τ order hr (by simp [hf]), State.edge, State.clock_grp, hf]
    simp only [State.recapture, State.clock_grp, hT, since_of_last (s := s.clock τ) hb, if_pos ht,
      boundary_eq_followed (s := s.clock τ) hq]
  case kept =>
    rw [exec_refEdge τ order hr (by simp [hf]), State.edge, State.clock_grp, hf]
    simp only [State.recapture, State.clock_grp, hT, since_of_last (s := s.clock τ) hb,
      if_neg (Nat.not_lt.2 ht), State.raiseRef, State.setGrp_grp_self]
    rw [paid_of_owed]
    exact howed
  case late => exact exec_refEdge_late order hr hq hl (by rw [hE, hT]; exact ht)

/-! ### REF_SET (R31 to R33) -/

theorem geometry?_eq {h l sw t k : Nat} (hh : 100 ≤ h ∧ h ≤ 8191) (hl : 20 ≤ l ∧ l ≤ 4095)
    (hs : sw + 1 ≤ l) : geometry? h l sw t k
      = some { h := h, l := l, s := sw, tol := max 1 (min (l * h / 4) t), kref := min 7 k } := by
  rw [geometry?, if_pos ⟨hh.1, hh.2, hl.1, hl.2, Nat.le_sub_one_of_lt hs⟩]
  simp [clamp]

/-- Settles O25. -/
theorem refSetEnablesOrStages : Obligations.RefSetEnablesOrStages := by
  unfold Obligations.RefSetEnablesOrStages
  intro τ order s o g h l sw tol kref hserve hg hh hl hsw h1 h2 l1 l2 hs htol hk q reply now
  have hgeo : geometry? (read16 o.payload 1) (read16 o.payload 3) (read16 o.payload 5)
      (read32 o.payload 7) (read8 o.payload 11) = some q := by
    rw [← hh, ← hl, ← hsw, geometry?_eq ⟨h1, h2⟩ ⟨l1, l2⟩ hs, ← htol, ← hk]
  refine ⟨fun hd => ?enabled, fun hd => ?staged⟩
  case enabled =>
    have ha : serveRefSet order o (s.atDesk τ o)
        = ⟨(s.atDesk τ o).enableGroup g q order, .done, reply 0⟩ := by
      rw [serveRefSet, hg, group?_code, hgeo]
      exact if_pos hd
    intro r u begun t
    refine congrArg Host.Outcome.next ((serve_paid hserve τ ha).trans ?_)
    rw [enableGroup_eq_followed]
    rfl
  case staged =>
    have ha : serveRefSet order o (s.atDesk τ o)
        = ⟨(s.atDesk τ o).setGrp g { s.grp g with staged := some q }, .done, reply 1⟩ := by
      rw [serveRefSet, hg, group?_code, hgeo]
      exact if_neg hd
    exact congrArg Host.Outcome.next (serve_answer hserve τ ha hserve.owed)

end Sys2Proof.Machine
end

section
/-! O53: a channel enters RECORDING, and the cues of a boundary (R141, R111, R146, R149). -/

namespace Sys2Proof.Machine

/-! ### What a change of other parts leaves of a channel -/

section
variable {ps : List Part} {s t : State}

theorem chan_of_same (h : SameBut ps s t) (hp : Part.recorder ∉ ps := by decide) (c : ChannelNo) :
    t.chan c = s.chan c := by
  have hr : t.recorder = s.recorder := h .recorder hp
  simp only [State.chan, hr]

theorem stamp_of_same (h : SameBut ps s t) (hp : Part.groups ∉ ps := by decide) (g : Group) :
    t.stamp g = s.stamp g := by
  rw [State.stamp, State.stamp, grp_of_same h hp]

/-- The group of a channel's destination is read from its binding and the map. -/
theorem chanGroup_of_same (h : SameBut ps s t) (hp : Part.map ∉ ps := by decide) {c : ChannelNo}
    (hb : (t.chan c).bound = (s.chan c).bound) : t.chanGroup c = s.chanGroup c := by
  simp only [State.chanGroup, hb, entry_of_same h hp]

theorem chanSource_of_same (h : SameBut ps s t) (hp : Part.map ∉ ps := by decide) {c : ChannelNo}
    (hb : (t.chan c).bound = (s.chan c).bound) : t.chanSource c = s.chanSource c := by
  simp only [State.chanSource, hb, entry_of_same h hp]

end

/-! ### A mark is logged (R145, R146) -/

@[simp] theorem Channel.log_bound (r : Channel) (m : Mark) : (r.log m).bound = r.bound := by
  unfold Channel.log; split <;> rfl

@[simp] theorem Channel.log_state (r : Channel) (m : Mark) : (r.log m).state = r.state := by
  unfold Channel.log; split <;> rfl

@[simp] theorem Channel.log_clip (r : Channel) (m : Mark) : (r.log m).clip = r.clip := by
  unfold Channel.log; split <;> rfl

section
variable (s : State) (c : ChannelNo) (m : Mark)

@[simp] theorem logMark_chan_self : (s.logMark c m).chan c = (s.chan c).log m := by
  unfold State.logMark
  dsimp only
  split <;> exact State.setChan_chan_self ..

theorem logMark_chan_of_ne {b : ChannelNo} (h : b ≠ c) : (s.logMark c m).chan b = s.chan b := by
  unfold State.logMark
  dsimp only
  split <;> exact State.setChan_chan_of_ne _ _ _ h

@[simp] theorem logMark_queue : (s.logMark c m).recorder.queue = s.recorder.queue := by
  unfold State.logMark
  dsimp only
  split <;> rfl

@[simp] theorem logMark_line : (s.logMark c m).recorder.line = s.recorder.line := by
  unfold State.logMark
  dsimp only
  split <;> rfl

/-- A list that rises from 23 marks to 24 owes its MARKS_HIGH, and no other does. -/
theorem logMark_high : (s.logMark c m).recorder.high = s.recorder.high ++ s.marksHigh [c] := by
  by_cases h : (s.chan c).marks.length = 23
  · have hlog : (s.chan c).log m = { s.chan c with marks := (s.chan c).marks ++ [m] } :=
      if_pos (by rw [h]; decide)
    have hlen : ((s.chan c).log m).marks.length = 24 := by rw [hlog]; simp [h]
    have hwrap : ((s.chan c).log m).wrapped = (s.chan c).wrapped := by rw [hlog]
    simp only [State.logMark, Config.markHigh, h, if_true, State.setChan_high, hlen, hwrap]
    simp [State.marksHigh, h, marksHighNotice, flagByte]
  · have hne : (s.chan c).marks.length + 1 ≠ Config.markHigh := fun e => h (Nat.succ.inj e)
    simp [State.logMark, hne, State.marksHigh, h]

end

/-! ### A channel enters RECORDING (R141, R111) -/

/-- A source gains one record count. -/
def Tally.recorded (r : Tally) : Tally := { r with record := r.record + 1 }

/-- What a channel holds after it has entered RECORDING: its START mark is logged. -/
def State.startedChannel (s : State) (c : ChannelNo) : Channel :=
  Channel.log { s.chan c with state := .recording, cue := none }
    ⟨.start, s.chanGroup c, s.stamp (s.chanGroup c), (s.chan c).clip, none, some (s.chanSource c)⟩

/-- The REC_STATE of a channel that enters RECORDING. -/
def State.startNotice (s : State) (cause : RecCause) (c : ChannelNo) : Notice :=
  recNotice c (s.chan c).state .recording cause (s.chan c).clip (s.chan c).bound (s.chanGroup c)
    (s.stamp (s.chanGroup c))

theorem tallyRecord_moved (s : State) (d : Dest) :
    TallyMoved s (s.tallyRecord d true) (s.entry d).source Tally.recorded := by
  unfold State.tallyRecord
  cases (s.entry d).source with
  | none => exact ⟨rfl, rfl⟩
  | some y =>
    have hsame := bump_same s .record true (some y)
    exact compareColour_moved (State.setTally_tallyOf_self ..) rfl
      (fun z hz => State.setTally_tallyOf_of_ne _ _ _ hz) (wall_of_same hsame)
      (fun w => showing_congr (wall_of_same hsame)
        (fun d => congrArg Entry.source (entry_of_same hsame (c := d))) w y)

theorem tallyChannel_moved (s : State) (c : ChannelNo) :
    TallyMoved s (s.tallyChannel c true) (s.chanSource c) Tally.recorded := by
  unfold State.tallyChannel State.chanSource
  cases (s.chan c).bound with
  | none => exact ⟨rfl, rfl⟩
  | some d => exact tallyRecord_moved s d

section
variable (s : State) (c : ChannelNo) (k : RecCause)

/-- The first steps of R141: the channel is in RECORDING, and its source has its record count. -/
def State.startCounted : State :=
  (s.setChan c { s.chan c with state := .recording, cue := none }).tallyChannel c true

/-- The steps of R141 before the notice: the mark is logged too. -/
def State.startRecording : State :=
  (s.startCounted c).logMark c
    ⟨.start, s.chanGroup c, s.stamp (s.chanGroup c), (s.chan c).clip, none, some (s.chanSource c)⟩

theorem startCounted_same :
    SameBut [.tally, .walls] (s.setChan c { s.chan c with state := .recording, cue := none })
      (s.startCounted c) := tallyChannel_same _ c true

theorem startCounted_recorder : (s.startCounted c).recorder
    = (s.setChan c { s.chan c with state := .recording, cue := none }).recorder :=
  startCounted_same s c .recorder (by decide)

theorem startRecording_same : SameBut [.tally, .walls, .recorder] s (s.startRecording c) :=
  ((setChan_same s c _).comp (startCounted_same s c) (by decide) (by decide)).trans
    ((logMark_same _ c _).mono (by decide))

theorem startRecording_chan : (s.startRecording c).chan c = s.startedChannel c := by
  rw [State.startRecording, logMark_chan_self, chan_of_same (startCounted_same s c),
    State.setChan_chan_self]
  rfl

theorem enterRecording_eq :
    s.enterRecording c k = (s.startRecording c).raise (s.startNotice k c) := by
  have hsame := startRecording_same s c
  have hchan := startRecording_chan s c
  have hbound : ((s.startRecording c).chan c).bound = (s.chan c).bound := by
    rw [hchan]; exact Channel.log_bound ..
  have hgroup := chanGroup_of_same hsame (c := c) (hb := hbound)
  change (s.startRecording c).raiseRec c (s.chan c).state k = _
  rw [State.raiseRec, hgroup, stamp_of_same hsame, hchan]
  simp only [State.startedChannel, Channel.log_state, Channel.log_clip, Channel.log_bound]
  rfl

@[simp] theorem enterRecording_control :
    (s.enterRecording c k).control = s.control.raise (s.startNotice k c) := by
  rw [enterRecording_eq, State.raise_control,
    show (s.startRecording c).control = s.control from startRecording_same s c .control (by decide)]

@[simp] theorem enterRecording_chan_self : (s.enterRecording c k).chan c = s.startedChannel c := by
  rw [enterRecording_eq, State.raise_chan, startRecording_chan]

theorem enterRecording_chan_of_ne {b : ChannelNo} (h : b ≠ c) :
    (s.enterRecording c k).chan b = s.chan b := by
  rw [enterRecording_eq, State.raise_chan, State.startRecording, logMark_chan_of_ne _ _ _ h,
    chan_of_same (startCounted_same s c), State.setChan_chan_of_ne _ _ _ h]

/-- No command is issued by the entry itself. -/
@[simp] theorem enterRecording_queue : (s.enterRecording c k).recorder.queue = s.recorder.queue := by
  rw [enterRecording_eq, State.raise_recorder, State.startRecording, logMark_queue,
    startCounted_recorder, State.setChan_queue]

@[simp] theorem enterRecording_line : (s.enterRecording c k).recorder.line = s.recorder.line := by
  rw [enterRecording_eq, State.raise_recorder, State.startRecording, logMark_line,
    startCounted_recorder, State.setChan_line]

@[simp] theorem enterRecording_high :
    (s.enterRecording c k).recorder.high = s.recorder.high ++ s.marksHigh [c] := by
  rw [enterRecording_eq, State.raise_recorder, State.startRecording, logMark_high,
    startCounted_recorder, State.setChan_high]
  simp only [State.marksHigh, chan_of_same (startCounted_same s c), List.filter_cons, List.filter_nil,
    State.setChan_chan_self]
  split <;> simp

/-- The source of the channel's destination gains its record count (R111). -/
theorem enterRecording_moved :
    TallyMoved s (s.enterRecording c k) (s.chanSource c) Tally.recorded := by
  have hset := setChan_same s c { s.chan c with state := .recording, cue := none }
  have hmoved : TallyMoved _ (s.startCounted c) _ Tally.recorded := tallyChannel_moved _ c
  rw [chanSource_of_same hset (hb := by rw [State.setChan_chan_self])] at hmoved
  have hlog : SameBut [.recorder] (s.startCounted c) (s.startRecording c) :=
    logMark_same _ c _
  rw [enterRecording_eq]
  have hsrc := fun d => congrArg Entry.source (entry_of_same hset (c := d))
  exact (hmoved.from_same (State.setChan_tally ..) (State.setChan_walls ..) hsrc).of_same
    (hlog .tally (by decide)) (hlog .walls (by decide))

end

/-! ### CUE_END, the entry of one channel -/

theorem marksHigh_one (s : State) (c : ChannelNo) : s.marksHigh [c]
    = if (s.chan c).marks.length = 23 then [⟨.marksHigh, be8 c.1 ++ be8 24 ++
        be8 (if (s.chan c).wrapped then 1 else 0)⟩] else [] := by
  by_cases h : (s.chan c).marks.length = 23 <;> simp [State.marksHigh, h]

theorem exec_cueEnd {s : State} {c : ChannelNo} (hr : s.pins.reset = false)
    (hs : (s.chan c).state = .cueing) (hc : (s.chan c).cue = some 1) :
    exec (.cueEnd c) s = .next (s.enterRecording c .cueEnd).paid := by
  change execCueEnd c s = _
  rw [execCueEnd, if_pos (by rw [hs, hc]; rfl), event_now_eq_paid hr]

/-- The event in which one channel enters RECORDING: REC_STATE, then the MARKS_HIGH that it owes. -/
theorem enterRecording_happened {s : State} (c : ChannelNo) (k : RecCause) (ho : s.recorder.high = []) :
    Happened s (s.enterRecording c k).paid s.now (s.startNotice k c :: s.marksHigh [c])
      [.tally, .walls, .recorder] where
  now := enterRecording_same s c k .now (by decide)
  control := by
    change List.foldl Control.raise _ _ = _
    rw [enterRecording_high, enterRecording_control, ho]
    rfl
  same := by
    rw [← flushHigh_eq_paid]
    exact (enterRecording_same s c k).comp (flushHigh_same _) (by decide) (by decide)

/-! ### A cue at a boundary -/

/-- The next boundary brings the cue countdown of the channel to 0. -/
def State.cueEnds (s : State) (c : ChannelNo) : Bool := (s.chan c).cue.any fun n => n ≤ 1

/-- A channel whose cue countdown is lowered. -/
def Channel.lowered (r : Channel) : Channel := { r with cue := r.cue.map (· - 1) }

section
variable {s : State} {c : ChannelNo}

theorem setChan_self (s : State) (c : ChannelNo) : s.setChan c (s.chan c) = s := by
  have h : s.recorder.channels.set c.1 s.recorder.channels[c] c.2 = s.recorder.channels :=
    Vector.set_getElem_self c.2
  rw [State.setChan, State.chan, h]

theorem cueBoundary_ends (h : s.cueEnds c = true) : s.cueBoundary c = s.enterRecording c .cueEnd := by
  unfold State.cueEnds at h
  unfold State.cueBoundary
  cases hc : (s.chan c).cue with
  | none => simp [hc] at h
  | some n => exact if_pos (by simpa [hc] using h)

theorem cueBoundary_lowers (h : s.cueEnds c = false) :
    s.cueBoundary c = s.setChan c (s.chan c).lowered := by
  unfold State.cueEnds at h
  unfold State.cueBoundary Channel.lowered
  cases hc : (s.chan c).cue with
  | none =>
    have hr : { s.chan c with cue := Option.map (· - 1) none } = s.chan c := by
      rw [Option.map_none, ← hc]
    rw [hr, setChan_self]
  | some n => exact if_neg (by simpa [hc] using h)

/-- What a channel holds after a boundary of its group. -/
def State.cuedChannel (s : State) (c : ChannelNo) : Channel :=
  if s.cueEnds c then s.startedChannel c else (s.chan c).lowered

theorem cueBoundary_chan_self (s : State) (c : ChannelNo) :
    (s.cueBoundary c).chan c = s.cuedChannel c := by
  cases h : s.cueEnds c with
  | true => rw [cueBoundary_ends h, enterRecording_chan_self, State.cuedChannel, if_pos h]
  | false => rw [cueBoundary_lowers h, State.setChan_chan_self, State.cuedChannel, h]; rfl

theorem cueBoundary_chan_of_ne (s : State) {b : ChannelNo} (h : b ≠ c) :
    (s.cueBoundary c).chan b = s.chan b := by
  cases hc : s.cueEnds c with
  | true => rw [cueBoundary_ends hc, enterRecording_chan_of_ne _ _ _ h]
  | false => rw [cueBoundary_lowers hc, State.setChan_chan_of_ne _ _ _ h]

end

/-! ### What a cue reads -/

/-- Two states agree on all that the cue of a channel reads: the channel, the map and the groups. -/
structure CueSame (c : ChannelNo) (s u : State) : Prop where
  chan : u.chan c = s.chan c
  same : SameBut [.control, .tally, .walls, .recorder] s u

namespace CueSame
variable {c : ChannelNo} {s u : State} (h : CueSame c s u)
include h

theorem cueEnds : u.cueEnds c = s.cueEnds c := by rw [State.cueEnds, State.cueEnds, h.chan]

theorem chanGroup : u.chanGroup c = s.chanGroup c :=
  chanGroup_of_same h.same (hb := congrArg Channel.bound h.chan)

theorem chanSource : u.chanSource c = s.chanSource c :=
  chanSource_of_same h.same (hb := congrArg Channel.bound h.chan)

theorem startNotice (k : RecCause) : u.startNotice k c = s.startNotice k c := by
  simp only [State.startNotice, h.chan, h.chanGroup, stamp_of_same h.same]

theorem marksHigh : u.marksHigh [c] = s.marksHigh [c] := by
  simp only [marksHigh_one, h.chan]

theorem cuedChannel : u.cuedChannel c = s.cuedChannel c := by
  simp only [State.cuedChannel, State.startedChannel, h.cueEnds, h.chan, h.chanGroup, h.chanSource,
    stamp_of_same h.same]

end CueSame

/-- A cue of one channel leaves all that the cue of another reads. -/
theorem cueBoundary_cueSame (s : State) {b c : ChannelNo} (h : b ≠ c) :
    CueSame b s (s.cueBoundary c) := ⟨cueBoundary_chan_of_ne s h, cueBoundary_same s c⟩

/-! ### The cues of several channels -/

/-- A part that only the end of a cue changes: over several channels it changes once for each of those
whose cue ends, in their order, each as the first state has it. -/
theorem foldl_cueBoundary {α : Type} {part : State → α} {act : State → ChannelNo → α → α}
    (hend : ∀ s c, part (s.enterRecording c .cueEnd) = act s c (part s))
    (hset : ∀ s c r, part (s.setChan c r) = part s)
    (hact : ∀ {s u c}, CueSame c s u → act u c = act s c) {l : List ChannelNo} (hl : l.Nodup)
    (s : State) :
    part (l.foldl State.cueBoundary s)
      = (l.filter s.cueEnds).foldl (fun a c => act s c a) (part s) := by
  induction l generalizing s with
  | nil => rfl
  | cons c l ih =>
    obtain ⟨hc, hl⟩ := List.nodup_cons.1 hl
    have hsame : ∀ b ∈ l, CueSame b s (s.cueBoundary c) := fun b hb =>
      cueBoundary_cueSame s fun e => hc (e ▸ hb)
    have hends : l.filter (s.cueBoundary c).cueEnds = l.filter s.cueEnds :=
      List.filter_congr fun b hb => (hsame b hb).cueEnds
    have hrest (a : α) : (l.filter s.cueEnds).foldl (fun a b => act (s.cueBoundary c) b a) a
        = (l.filter s.cueEnds).foldl (fun a b => act s b a) a :=
      List.foldl_ext _ _ a fun a b hb => by rw [hact (hsame b (List.mem_of_mem_filter hb))]
    rw [List.foldl_cons, ih hl, hends, hrest]
    cases h : s.cueEnds c with
    | true => rw [List.filter_cons_of_pos h, List.foldl_cons, cueBoundary_ends h, hend]
    | false => rw [List.filter_cons_of_neg (by simp [h]), cueBoundary_lowers h, hset]

theorem foldl_cueBoundary_chan {l : List ChannelNo} (hl : l.Nodup) {c : ChannelNo} (hc : c ∈ l)
    (s : State) : (l.foldl State.cueBoundary s).chan c = s.cuedChannel c := by
  induction l generalizing s with
  | nil => cases hc
  | cons b l ih =>
    obtain ⟨hb, hl⟩ := List.nodup_cons.1 hl
    rw [List.foldl_cons]
    by_cases h : c = b
    · subst h
      rw [foldl_untouched State.chan State.cueBoundary (fun s _ _ h => cueBoundary_chan_of_ne s h) l _
        c hb, cueBoundary_chan_self]
    · rw [ih hl ((List.mem_cons.1 hc).resolve_left h), (cueBoundary_cueSame s h).cuedChannel]

theorem marksHigh_cons (s : State) (c : ChannelNo) (l : List ChannelNo) :
    s.marksHigh (c :: l) = s.marksHigh [c] ++ s.marksHigh l := by
  simp only [State.marksHigh, ← List.map_append, ← List.filter_append, List.singleton_append]

theorem foldl_marksHigh (s : State) (l : List ChannelNo) (a : List Notice) :
    l.foldl (fun a c => a ++ s.marksHigh [c]) a = a ++ s.marksHigh l := by
  induction l generalizing a with
  | nil => simp [State.marksHigh]
  | cons c l ih => rw [List.foldl_cons, ih, marksHigh_cons s c l, List.append_assoc]

/-! ### The counts of one source -/

/-- A tally record that gains `n` record counts, its colour compared after each. -/
def Tally.gains (r : Tally) (n : Nat) : Tally :=
  if n = 0 then r
  else { r with record := r.record + n, colour := colourOf { r with record := r.record + n } }

theorem Tally.gains_one (r : Tally) :
    r.gains 1 = { r.recorded with colour := colourOf r.recorded } := rfl

theorem Tally.gains_gains (r : Tally) (m n : Nat) : (r.gains m).gains n = r.gains (m + n) := by
  by_cases hm : m = 0
  · simp [Tally.gains, hm]
  · by_cases hn : n = 0
    · simp [Tally.gains, hn]
    · simp [Tally.gains, hm, hn, colourOf, Nat.add_assoc]

theorem foldl_gains {ι : Type} (p : ι → Prop) [DecidablePred p] (l : List ι) (r : Tally) :
    l.foldl (fun r c => if p c then r.gains 1 else r) r = r.gains (l.countP fun c => p c) := by
  induction l generalizing r with
  | nil => rfl
  | cons c l ih =>
    rw [List.foldl_cons, ih, List.countP_cons]
    by_cases h : p c
    · simp [h, Tally.gains_gains, Nat.add_comm]
    · simp [h]

theorem enterRecording_tallyOf (s : State) (c : ChannelNo) (k : RecCause) (x : Source) :
    (s.enterRecording c k).tallyOf x
      = if s.chanSource c = some x then (s.tallyOf x).gains 1 else s.tallyOf x := by
  have hmoved := enterRecording_moved s c k
  cases hsrc : s.chanSource c with
  | none =>
    rw [hsrc] at hmoved
    simp only [State.tallyOf, hmoved.1, reduceCtorEq, if_false]
  | some y =>
    rw [hsrc] at hmoved
    obtain ⟨hself, hother, _⟩ := hmoved
    by_cases hxy : y = x
    · subst hxy
      rw [if_pos rfl, hself, Tally.gains_one]
    · rw [if_neg fun e => hxy (Option.some.inj e), hother x (Ne.symm hxy)]

/-! ### A change of colour is announced -/

/-- Between two states no tile has left an update queue, the tiles that show a source are the same, and
they are queued when its colour has changed (R113, R114). -/
structure ColourTold (x : Source) (s t : State) : Prop where
  keeps : ∀ w, ∀ i ∈ (s.wall w).queue, i ∈ (t.wall w).queue
  shows : ∀ w, t.showing w x = s.showing w x
  told  : (t.tallyOf x).colour ≠ (s.tallyOf x).colour → ∀ w, ∀ i ∈ s.showing w x, i ∈ (t.wall w).queue

theorem ColourTold.refl (x : Source) (s : State) : ColourTold x s s :=
  ⟨fun _ _ h => h, fun _ => rfl, fun h => absurd rfl h⟩

theorem ColourTold.trans {x : Source} {s t u : State} (h : ColourTold x s t) (k : ColourTold x t u) :
    ColourTold x s u where
  keeps w i hi := k.keeps w i (h.keeps w i hi)
  shows w := (k.shows w).trans (h.shows w)
  told hne w i hi := by
    by_cases hst : (t.tallyOf x).colour = (s.tallyOf x).colour
    · exact k.told (hst ▸ hne) w i (h.shows w ▸ hi)
    · exact k.keeps w i (h.told hst w i hi)

theorem mem_tilesOn {w : WallNo} {i : TileNo} {ps : List (WallNo × TileNo)} :
    i ∈ tilesOn w ps ↔ (w, i) ∈ ps := by
  simp [tilesOn]

theorem Queued.mem_queue {s t : State} {ps : List (WallNo × TileNo)} (h : Queued s t ps) (w : WallNo)
    (i : TileNo) : i ∈ (t.wall w).queue ↔ i ∈ (s.wall w).queue ∨ (w, i) ∈ ps := by
  rw [h w, ← mem_tilesOn]
  by_cases hi : i ∈ (s.wall w).queue <;> simp [hi]

/-- Which tiles show a source does not depend on the update queues. -/
theorem showing_of_tiles {s u : State} (hw : ∀ w, (u.wall w).tiles = (s.wall w).tiles)
    (hsrc : ∀ d, (u.entry d).source = (s.entry d).source) (w : WallNo) (x : Source) :
    u.showing w x = s.showing w x := by
  have hshown (k : TileKind) : u.shown k = s.shown k := by
    cases k with
    | dest d => exact hsrc d
    | invalid => rfl
    | fixed y => rfl
  simp only [State.showing, hshown, hw]

/-- A change of colour at a move of counts is told to the tiles that show the source. -/
theorem TallyMoved.colourTold {s t : State} {y : Option Source} {f : Tally → Tally}
    (h : TallyMoved s t y f) (hm : t.map = s.map) (x : Source) : ColourTold x s t := by
  have hsrc (d : Dest) : (t.entry d).source = (s.entry d).source := by simp only [State.entry, hm]
  cases y with
  | none =>
    obtain ⟨htally, hwalls⟩ := h
    have hwall (w : WallNo) : t.wall w = s.wall w := by simp only [State.wall, hwalls]
    exact ⟨fun w i hi => by rwa [hwall], showing_of_tiles (fun w => by rw [hwall]) hsrc (x := x),
      fun hne => absurd (by simp only [State.tallyOf, htally]) hne⟩
  | some y =>
    obtain ⟨hself, hother, hq⟩ := h
    refine ⟨fun w i hi => (hq.mem_queue w i).2 (.inl hi),
      fun w => showing_of_tiles (fun w => by rw [hq w]) hsrc w x, fun hne w i hi => ?_⟩
    have hxy : x = y := by_contra fun hxy => hne (by rw [hother x hxy])
    subst hxy
    rw [hself] at hne
    refine (hq.mem_queue w i).2 (.inr ?_)
    rw [if_neg hne]
    exact List.mem_flatMap.2 ⟨w, List.mem_finRange w, List.mem_map_of_mem hi⟩

theorem enterRecording_colourTold (s : State) (c : ChannelNo) (k : RecCause) (x : Source) :
    ColourTold x s (s.enterRecording c k) :=
  (enterRecording_moved s c k).colourTold (enterRecording_same s c k .map (by decide)) x

theorem cueBoundary_colourTold (s : State) (c : ChannelNo) (x : Source) :
    ColourTold x s (s.cueBoundary c) := by
  cases h : s.cueEnds c with
  | true => rw [cueBoundary_ends h]; exact enterRecording_colourTold s c _ x
  | false =>
    rw [cueBoundary_lowers h]
    exact ⟨fun _ _ hi => hi, fun _ => rfl, fun hne => absurd rfl hne⟩

theorem foldl_cueBoundary_colourTold (l : List ChannelNo) (s : State) (x : Source) :
    ColourTold x s (l.foldl State.cueBoundary s) := by
  induction l generalizing s with
  | nil => exact .refl x s
  | cons c l ih => exact (cueBoundary_colourTold s c x).trans (ih _)

/-! ### The cues of a boundary -/

/-- The numbers selected are those whose records meet the condition, in their order. -/
theorem select_eq_filter {α : Type} {n : Nat} (p : α → Bool) (v : Vector α n) :
    select p v = (List.finRange n).filter fun i => p v[i] := by
  refine List.Perm.eq_of_pairwise (le := (· < ·)) (fun a b _ _ h k => absurd h (lt_asymm k))
    (select_ascending p v) ((List.pairwise_lt_finRange n).filter _) ?_
  refine (List.perm_ext_iff_of_nodup (select_nodup p v) ((List.nodup_finRange n).filter _)).2 fun i => ?_
  rw [mem_select, List.mem_filter]
  simp

/-- The channels in CUEING whose destination's group is `g`, ascending. -/
def State.cueing (s : State) (g : Group) : List ChannelNo :=
  (select (fun c : Channel => c.state == .cueing && c.bound.isSome) s.recorder.channels).filter
    (fun c => s.chanGroup c == g)

theorem cueing_nodup (s : State) (g : Group) : (s.cueing g).Nodup := (select_nodup _ _).filter _

theorem mem_cueing {s : State} {g : Group} {c : ChannelNo} : c ∈ s.cueing g ↔
    (s.chan c).state = .cueing ∧ ∃ d, (s.chan c).bound = some d ∧ (s.entry d).group = g := by
  rw [State.cueing, List.mem_filter, mem_select]
  change ((s.chan c).state == .cueing && (s.chan c).bound.isSome) = true ∧ _ ↔ _
  cases hb : (s.chan c).bound <;> simp [State.chanGroup, hb]

theorem cueing_ended (s : State) (g : Group) : (s.cueing g).filter s.cueEnds
    = (List.finRange 16).filter fun c => (s.chan c).state = .cueing
      ∧ ((s.chan c).bound.any fun d => (s.entry d).group = g) ∧ ((s.chan c).cue.any fun n => n ≤ 1) := by
  rw [State.cueing, select_eq_filter, List.filter_filter, List.filter_filter]
  refine List.filter_congr fun c _ => ?_
  change ((s.cueEnds c && s.chanGroup c == g)
    && ((s.chan c).state == .cueing && (s.chan c).bound.isSome)) = _
  cases hb : (s.chan c).bound <;>
    simp [State.chanGroup, State.cueEnds, hb, Bool.and_comm, beq_eq_decide]

section
variable (s : State) (g : Group)

theorem recordersAtBoundary_control : (s.recordersAtBoundary g).control
    = (((s.cueing g).filter s.cueEnds).map (s.startNotice .cueEnd)).foldl Control.raise s.control :=
  (foldl_cueBoundary (part := State.control) (act := fun s c a => a.raise (s.startNotice .cueEnd c))
    (fun s c => enterRecording_control s c .cueEnd) (fun _ _ _ => rfl) (fun h => by rw [h.startNotice])
    (cueing_nodup s g) s).trans List.foldl_map.symm

theorem recordersAtBoundary_queue : (s.recordersAtBoundary g).recorder.queue = s.recorder.queue :=
  (foldl_cueBoundary (part := fun s => s.recorder.queue) (act := fun _ _ a => a)
    (fun s c => enterRecording_queue s c .cueEnd) (fun _ _ _ => rfl) (fun _ => rfl) (cueing_nodup s g)
    s).trans (List.foldl_fixed _)

theorem recordersAtBoundary_line : (s.recordersAtBoundary g).recorder.line = s.recorder.line :=
  (foldl_cueBoundary (part := fun s => s.recorder.line) (act := fun _ _ a => a)
    (fun s c => enterRecording_line s c .cueEnd) (fun _ _ _ => rfl) (fun _ => rfl) (cueing_nodup s g)
    s).trans (List.foldl_fixed _)

theorem recordersAtBoundary_high : (s.recordersAtBoundary g).recorder.high
    = s.recorder.high ++ s.marksHigh ((s.cueing g).filter s.cueEnds) :=
  (foldl_cueBoundary (part := fun s => s.recorder.high) (act := fun s c a => a ++ s.marksHigh [c])
    (fun s c => enterRecording_high s c .cueEnd) (fun _ _ _ => rfl) (fun h => by rw [h.marksHigh])
    (cueing_nodup s g) s).trans (foldl_marksHigh ..)

/-- A source gains one record count for each channel that enters RECORDING and records it (R111). -/
theorem recordersAtBoundary_tallyOf (x : Source) : (s.recordersAtBoundary g).tallyOf x
    = (s.tallyOf x).gains (((s.cueing g).filter s.cueEnds).countP fun c => s.chanSource c = some x) :=
  (foldl_cueBoundary (part := fun s => s.tallyOf x)
    (act := fun s c a => if s.chanSource c = some x then a.gains 1 else a)
    (fun s c => enterRecording_tallyOf s c .cueEnd x) (fun _ _ _ => rfl)
    (fun h => by rw [h.chanSource]) (cueing_nodup s g) s).trans (foldl_gains ..)

variable {s g} {c : ChannelNo}

theorem recordersAtBoundary_chan (hc : c ∈ s.cueing g) :
    (s.recordersAtBoundary g).chan c = s.cuedChannel c :=
  foldl_cueBoundary_chan (cueing_nodup s g) hc s

theorem recordersAtBoundary_chan_of_not_mem (hc : c ∉ s.cueing g) :
    (s.recordersAtBoundary g).chan c = s.chan c :=
  foldl_untouched State.chan State.cueBoundary (fun s _ _ h => cueBoundary_chan_of_ne s h) _ s c hc

theorem chanGroup_of_bound {d : Dest} (h : (s.chan c).bound = some d) :
    s.chanGroup c = (s.entry d).group := by rw [State.chanGroup, h]

theorem chanSource_of_bound {d : Dest} (h : (s.chan c).bound = some d) :
    s.chanSource c = (s.entry d).source := by rw [State.chanSource, h]

/-- The START mark of a channel, by the destination that it is bound to. -/
theorem startedChannel_of_bound {d : Dest} (h : (s.chan c).bound = some d) : s.startedChannel c
    = Channel.log { s.chan c with state := .recording, cue := none }
      ⟨.start, (s.entry d).group, s.stamp (s.entry d).group, (s.chan c).clip, none,
        some (s.entry d).source⟩ := by
  rw [State.startedChannel, chanGroup_of_bound h, chanSource_of_bound h]

end

/-- Settles O53: each part of the state along the channels that cue, and the row of one channel. -/
theorem cueEndsInRecording : Obligations.CueEndsInRecording := by
  unfold Obligations.CueEndsInRecording
  refine ⟨?boundary, ?row⟩
  case boundary =>
    intro s g t ended
    have hended : ended = (s.cueing g).filter s.cueEnds := (cueing_ended s g).symm
    clear_value ended
    subst hended
    refine ⟨recordersAtBoundary_same s g, ?control, recordersAtBoundary_queue s g,
      recordersAtBoundary_line s g, recordersAtBoundary_high s g, ?tally, ?chan⟩
    case control =>
      refine (recordersAtBoundary_control s g).trans (congrArg (List.foldl Control.raise s.control)
        (List.map_congr_left fun c hc => ?_))
      obtain ⟨hs, d, hb, hg⟩ := mem_cueing.1 (List.mem_of_mem_filter hc)
      rw [State.startNotice, chanGroup_of_bound hb, hg, hs]
    case tally =>
      intro x r n r1
      have htally : t.tallyOf x = r.gains n := recordersAtBoundary_tallyOf s g x
      refine ⟨htally, fun hn hcol => (foldl_cueBoundary_colourTold (s.cueing g) s x).told ?_⟩
      change (t.tallyOf x).colour ≠ _
      rw [htally, Tally.gains, if_neg hn]
      exact hcol
    case chan =>
      intro c r r1
      refine ⟨fun h => recordersAtBoundary_chan_of_not_mem fun hc => ?other,
        fun d n hs hb hg hn => ?cued⟩
      case other =>
        obtain ⟨hs, d, hb, hg⟩ := mem_cueing.1 hc
        exact h.elim (fun h => h hs) fun h => h d hb hg
      case cued =>
        have hr1 : r1 = s.cuedChannel c := recordersAtBoundary_chan (mem_cueing.2 ⟨hs, d, hb, hg⟩)
        rw [hr1, State.cuedChannel, State.cueEnds, hn]
        refine ⟨fun h => ?_, fun h => ?_⟩
        · rw [if_neg (by simp; omega), Channel.lowered, hn]
          rfl
        · rw [if_pos (by simpa using h), startedChannel_of_bound hb, hg]
  case row =>
    intro s c d hr ho r g hs hc hb
    refine ⟨_, exec_cueEnd hr hs hc, ?_, ?_, (paid_queue _).trans (enterRecording_queue ..),
      (paid_line _).trans (enterRecording_line ..), ?_,
      fun b hb => (paid_chan _ b).trans (enterRecording_chan_of_ne s c .cueEnd hb)⟩
    · have h := enterRecording_happened c .cueEnd ho
      rwa [State.startNotice, chanGroup_of_bound hb, hs, hb, marksHigh_one] at h
    · exact chanSource_of_bound hb ▸ (enterRecording_moved s c .cueEnd).of_same (paid_tally _) (paid_walls _)
    · rw [paid_chan, enterRecording_chan_self]
      exact startedChannel_of_bound hb

end Sys2Proof.Machine
end

section
/-! O29 and O30: the scheduler's quantities (R63), and where a take lands (R48, R49). -/

namespace Sys2Proof.Machine

/-! ### LEAD_SET -/

/-- Settles O29: the quantities are loaded whatever their values. -/
theorem leadSetLoadsTheFourQuantities : Obligations.LeadSetLoadsTheFourQuantities := by
  unfold Obligations.LeadSetLoadsTheFourQuantities
  intro τ s o h
  have hload : serveLeadSet o (s.atDesk τ o) = ⟨{ s.atDesk τ o with
      sched := ⟨read16 o.payload 0, min (read8 o.payload 2) 7, min (read16 o.payload 3) 16383,
        max 1 (min 15 (read8 o.payload 5))⟩ }, .done, _⟩ := rfl
  exact congrArg Host.Outcome.next (serve_answer h τ hload h.owed)

/-! ### The landing count (R48) -/

section
variable {margin t S F : Nat}

/-- The switch point of the landing frame lies the margin or more ahead. -/
theorem landingCount_reaches (hF : 0 < F) : margin + t ≤ landingCount margin t S F * F + S := by
  unfold landingCount ceilDiv
  split
  · omega
  · have hround := Nat.lt_div_mul_add (a := margin + t - S + (F - 1)) hF
    omega

/-- No earlier frame's switch point does. -/
theorem landingCount_least {m : Nat} (hm : m < landingCount margin t S F) : m * F + S < margin + t := by
  unfold landingCount ceilDiv at hm
  split at hm
  · exact absurd hm (Nat.not_lt_zero m)
  · rcases Nat.eq_zero_or_pos F with rfl | hF
    · simp at hm
    · have hlow := (Nat.le_div_iff_mul_le hF).1 hm
      rw [Nat.succ_mul] at hlow
      omega

/-- A count that reaches the margin bounds the landing count. -/
theorem landingCount_le {n : Nat} (h : margin + t ≤ n * F + S) : landingCount margin t S F ≤ n :=
  Nat.le_of_not_lt fun hn => absurd (landingCount_least hn) (Nat.not_lt.2 h)

end

/-! ### The placement (R48, R49) -/

section
variable {s : State} {g : Group} {q : Geometry}

theorem frameTicks_of_active (h : (s.grp g).active = some q) : s.frameTicks g = q.l * q.h := by
  simp only [State.frameTicks, h]
  rfl

/-- The placement of a take in terms of F, S, t and Λ + G. -/
theorem placement_of_active (h : (s.grp g).active = some q) :
    let F := q.l * q.h
    let margin := s.sched.lead + s.sched.guard
    let n := landingCount margin (min (s.since g) (F - 1)) (q.s * q.h) F
    let D := n * F + q.s * q.h - margin
    s.placement g = ⟨(s.grp g).frame + BitVec.ofNat 24 n, n, D / F, D % F⟩ := by
  simp only [State.placement, State.placingTime, frameTicks_of_active h, switchTicks_of_active h]
  rfl

end

/-- Settles O30: the landing count is the least that reaches Λ + G, and D is divided by F. -/
theorem placementLandsAtTheFirstReachableSwitchPoint :
    Obligations.PlacementLandsAtTheFirstReachableSwitchPoint := by
  unfold Obligations.PlacementLandsAtTheFirstReachableSwitchPoint
  intro s g q hq hF hs hlead hguard F S t margin pl
  have hS : S < F := Nat.mul_lt_mul_of_pos_right hs (Nat.pos_of_mul_pos_left (by omega : 0 < q.l * q.h))
  have ht : t ≤ F - 1 := Nat.min_le_right _ _
  have hpl : pl = _ := placement_of_active hq
  rw [hpl]
  generalize hn : landingCount margin t S F = n
  have hreach : margin + t ≤ n * F + S := hn ▸ landingCount_reaches (by omega)
  have hD : n * F + S - margin < (n + 1) * F := by rw [Nat.succ_mul]; omega
  generalize hDef : n * F + S - margin = D at hD
  have hsplit := Nat.div_add_mod' D F
  have hwhole : D / F * F + D % F + margin = n * F + S := by omega
  have hahead : t ≤ D / F * F + D % F := by omega
  subst hDef
  exact ⟨hreach, fun m hm => landingCount_least (hn ▸ hm), hn ▸ landingCount_le (by omega), rfl,
    hwhole, Nat.mod_lt _ (by omega), Nat.le_of_lt_succ ((Nat.div_lt_iff_lt_mul (by omega)).2 hD), hahead⟩

end Sys2Proof.Machine
end

section
/-! O32: how an ended take is reported, and what the reports read (R60, R96). -/

namespace Sys2Proof.Machine

/-- Settles O32: a ticket, a salvo tag, or neither. -/
theorem endedTakeIsReported : Obligations.EndedTakeIsReported := by
  unfold Obligations.EndedTakeIsReported
  intro s d ticket tag r deferred
  refine ⟨fun h => if_pos h, rfl, ?_⟩
  intro k hk q counted left
  have hcount (f : Firing) : f.count r deferred = counted f := by
    cases r <;> cases deferred <;> rfl
  subst hk
  simp only [State.reportTake, ne_eq, not_true_eq_false, if_false, State.accountTake, hcount]
  exact ite_congr (propext Nat.sub_eq_zero_iff_le) (fun _ => rfl) fun _ => rfl

/-! ### What the reports of takes read and write -/

/-- The parts that the reports of takes write: the interface and the salvo slots. -/
def State.accounts (s : State) : Control × Vector Slot 16 := (s.control, s.salvos)

theorem accounts_eq_iff {s t : State} :
    t.accounts = s.accounts ↔ t.control = s.control ∧ t.salvos = s.salvos := Prod.ext_iff

theorem accounts_of_same {ps : List Part} {s t : State} (h : SameBut ps s t)
    (hc : Part.control ∉ ps := by decide) (hs : Part.salvos ∉ ps := by decide) :
    t.accounts = s.accounts := accounts_eq_iff.2 ⟨h .control hc, h .salvos hs⟩

section
variable {s u : State} {d : Dest}

/-- A report reads the interface, the slots, the groups, and of the map the group of its destination. -/
theorem reportTake_accounts (ha : u.accounts = s.accounts) (hg : u.groups = s.groups)
    (he : (u.entry d).group = (s.entry d).group) (ticket : Word16) (tag : Option SlotNo) (r : TakeResult)
    (deferred : Bool) :
    (u.reportTake d ticket tag r deferred).accounts = (s.reportTake d ticket tag r deferred).accounts := by
  obtain ⟨hc, hs⟩ := accounts_eq_iff.1 ha
  have hstamp : u.destStamp d = s.destStamp d := by
    simp only [State.destStamp, State.stamp, State.grp, hg, he]
  unfold State.reportTake
  split
  · simp only [State.accounts, State.raise, hc, hs, he, hstamp]
  · split
    · next _ k =>
      have hslot : u.slot k = s.slot k := by simp only [State.slot, hs]
      simp only [State.accountTake, hslot]
      split <;> simp only [State.accounts, State.raise, State.setSlot, hc, hs]
    · exact ha

theorem reportTakes_same (s : State) (d : Dest) (r : TakeResult) (both : Bool) :
    SameBut [.control, .salvos] s (s.reportTakes d r both) := by
  have hpending : SameBut [.control, .salvos] s (match (s.entry d).pending with
      | some p => s.reportTake d p.ticket p.tag r p.deferred
      | none => s) := by
    split
    · exact reportTake_same s d _ _ _ _
    · exact .refl _ _
  unfold State.reportTakes
  dsimp only
  split
  · exact hpending.trans (reportTake_same _ d _ _ _ _)
  · exact hpending

/-- Of the map, the reports of a destination's takes read its takes and its group. -/
theorem reportTakes_accounts (ha : u.accounts = s.accounts) (hg : u.groups = s.groups)
    (he : (u.entry d).group = (s.entry d).group) (hp : (u.entry d).pending = (s.entry d).pending)
    (hn : (u.entry d).next = (s.entry d).next) (r : TakeResult) (both : Bool) :
    (u.reportTakes d r both).accounts = (s.reportTakes d r both).accounts := by
  unfold State.reportTakes
  simp only [hp, hn]
  cases (s.entry d).pending with
  | none =>
    split
    · exact reportTake_accounts ha hg he _ _ _ _
    · exact ha
  | some p =>
    have h1 := reportTake_accounts ha hg he p.ticket p.tag r p.deferred
    have hsame := fun v : State => reportTake_same v d p.ticket p.tag r p.deferred
    split
    · refine reportTake_accounts h1 ?_ ?_ _ _ _ _
      · exact ((hsame u) .groups (by decide)).trans (hg.trans ((hsame s) .groups (by decide)).symm)
      · simp only [reportTake_entry, he]
    · exact h1

end

end Sys2Proof.Machine
end

section
/-! What one action on each of several records does to a part of the state; what a placement reads; and
tiles that are queued twice (R124). -/

namespace Sys2Proof.Machine

/-! ### One record after the other -/

section
variable {ι α : Type} {f : State → ι → State} {I : State → Prop}

/-- Acting on several records in turn, each once: a part of the state that each action changes by what it
reads of its own record, which the other actions leave, changes as the first state has it. -/
theorem foldl_part {part : State → α} {act : State → ι → α → α} (hI : ∀ {s} i, I s → I (f s i))
    (hpart : ∀ s i, I s → part (f s i) = act s i (part s))
    (hact : ∀ s i j, I s → j ≠ i → act (f s i) j = act s j) {l : List ι} (hl : l.Nodup) {s : State}
    (hs : I s) : part (l.foldl f s) = l.foldl (fun a i => act s i a) (part s) := by
  induction l generalizing s with
  | nil => rfl
  | cons i l ih =>
    obtain ⟨hi, hl⟩ := List.nodup_cons.1 hl
    rw [List.foldl_cons, ih hl (hI i hs), hpart s i hs, List.foldl_cons]
    exact List.foldl_ext _ _ _ fun a j hj => by
      rw [hact s i j hs (ne_of_mem_of_not_mem hj hi)]

/-- Acting on several records in turn, each once: a record named is what its own action makes of it. -/
theorem foldl_own {get : State → ι → α} {new : State → ι → α} (hI : ∀ {s} i, I s → I (f s i))
    (hself : ∀ s i, I s → get (f s i) i = new s i) (hne : ∀ s i j, j ≠ i → get (f s i) j = get s j)
    (hnew : ∀ s i j, I s → j ≠ i → new (f s i) j = new s j) {l : List ι} (hl : l.Nodup) {s : State}
    (hs : I s) {i : ι} (hi : i ∈ l) : get (l.foldl f s) i = new s i := by
  induction l generalizing s with
  | nil => cases hi
  | cons j l ih =>
    obtain ⟨hj, hl⟩ := List.nodup_cons.1 hl
    rw [List.foldl_cons]
    by_cases h : i = j
    · subst h
      rw [foldl_untouched get f hne l _ i hj, hself s i hs]
    · rw [ih hl (hI j hs) ((List.mem_cons.1 hi).resolve_left h), hnew s j i hs h]

end

/-- Acting on those of several records that are chosen, where no action decides whether another record
is. -/
theorem foldl_chosen {ι : Type} {f : State → ι → State} {chosen : State → ι → Bool}
    (h : ∀ s {j i : ι}, j ≠ i → chosen (f s i) j = chosen s j) {l : List ι} (hl : l.Nodup) (s : State) :
    l.foldl (fun u i => if chosen u i then f u i else u) s = (l.filter (chosen s)).foldl f s := by
  induction l generalizing s with
  | nil => rfl
  | cons i l ih =>
    obtain ⟨hi, hl⟩ := List.nodup_cons.1 hl
    rw [List.foldl_cons, ih hl]
    cases hc : chosen s i with
    | false => rw [List.filter_cons_of_neg (by simp [hc])]; rfl
    | true =>
      rw [List.filter_cons_of_pos hc, List.foldl_cons, if_pos rfl]
      exact congrArg (List.foldl _ _) (List.filter_congr fun j hj => h s (ne_of_mem_of_not_mem hj hi))

/-! ### What a placement reads (R30, R48) -/

section
variable {ps : List Part} {s t : State}

theorem since_of_same (h : SameBut ps s t) (hn : Part.now ∉ ps := by decide)
    (hg : Part.groups ∉ ps := by decide) (g : Group) : t.since g = s.since g := by
  have hnow : t.now = s.now := h .now hn
  simp only [State.since, grp_of_same h hg, hnow]

theorem placement_of_same (h : SameBut ps s t) (hn : Part.now ∉ ps := by decide)
    (hg : Part.groups ∉ ps := by decide) (hq : Part.sched ∉ ps := by decide) (g : Group) :
    t.placement g = s.placement g := by
  have hsched : t.sched = s.sched := h .sched hq
  simp only [State.placement, State.placingTime, State.frameTicks, State.switchTicks, State.stamp,
    since_of_same h hn hg, grp_of_same h hg, hsched]

end

/-- Two states that differ in no part are the same. -/
theorem SameBut.eq {s t : State} (h : SameBut [] s t) : t = s := by
  have hp := fun p => h p List.not_mem_nil
  cases s
  cases t
  congr
  exacts [hp .pending, hp .now, hp .pins, hp .control, hp .map, hp .panels, hp .groups, hp .sched,
    hp .link, hp .salvos, hp .triggers, hp .tally, hp .walls, hp .names, hp .recorder]

/-! ### Tiles queued -/

theorem walls_ext {s t : State} (h : ∀ w, t.wall w = s.wall w) : t.walls = s.walls := by
  ext1 i hi
  exact h ⟨i, hi⟩

theorem wall_congr {s t : State} (h : t.walls = s.walls) (w : WallNo) : t.wall w = s.wall w := by
  simp only [State.wall, h]

theorem queueTiles_walls {s u : State} (h : u.walls = s.walls) (ps : List (WallNo × TileNo)) :
    (u.queueTiles ps).walls = (s.queueTiles ps).walls :=
  walls_ext fun w => by rw [wall_queueTiles, wall_queueTiles, wall_congr h]

theorem foldl_enqueue_of_mem {l : List TileNo} {r : Wall} (h : ∀ i ∈ l, i ∈ r.queue) :
    l.foldl Wall.enqueue r = r := by
  induction l with
  | nil => rfl
  | cons i l ih =>
    rw [List.foldl_cons, Wall.enqueue, if_pos (h i List.mem_cons_self)]
    exact ih fun j hj => h j (List.mem_cons_of_mem i hj)

/-- Tiles that have been queued are queued again to no effect. -/
theorem queueTiles_twice (s : State) (ps : List (WallNo × TileNo)) :
    ((s.queueTiles ps).queueTiles ps).walls = (s.queueTiles ps).walls :=
  walls_ext fun w => by
    rw [wall_queueTiles]
    exact foldl_enqueue_of_mem fun i hi => (mem_queueTiles s ps w i).2 (.inr (mem_tilesOn.1 hi))

theorem queued_of_walls {s t : State} {ps : List (WallNo × TileNo)}
    (h : t.walls = (s.queueTiles ps).walls) (hn : ps.Nodup) : Queued s t ps :=
  (queueTiles_queued s hn).of_walls (fun _ => rfl) (wall_congr h)

theorem mem_queue_of_walls {s t : State} {ps : List (WallNo × TileNo)}
    (h : t.walls = (s.queueTiles ps).walls) {w : WallNo} {i : TileNo} (hi : (w, i) ∈ ps) :
    i ∈ (t.wall w).queue := by
  rw [wall_congr h]
  exact (mem_queueTiles s ps w i).2 (.inr hi)

/-- A tile stands in one tile list only (R7, R123). -/
theorem FanoutLaw.nodup_flatMap {s : State} (h : FanoutLaw s) {l : List Dest} (hl : l.Nodup) :
    (l.flatMap fun d => (s.entry d).tiles).Nodup := by
  refine List.nodup_flatMap.2 ⟨fun d _ => h.nodup d, hl.imp fun {d e} hde => ?_⟩
  rintro ⟨w, i⟩ hd he
  have hk := ((h.bound d w i).1 hd).symm.trans ((h.bound e w i).1 he)
  exact hde (TileKind.dest.inj hk)

end Sys2Proof.Machine
end

section
/-! O33: takes that ask the pool for a token, one and several (R51, R76). -/

namespace Sys2Proof.Machine

/-! ### The matrix line (R67) -/

theorem Link.Steady.refl (l : Link) : l.Steady l := ⟨rfl, rfl, rfl, rfl⟩

theorem Link.Steady.trans {l m n : Link} (h : l.Steady m) (k : m.Steady n) : l.Steady n := by
  obtain ⟨h1, h2, h3, h4⟩ := h
  obtain ⟨k1, k2, k3, k4⟩ := k
  exact ⟨k1.trans h1, k2.trans h2, k3.trans h3, k4.trans h4⟩

theorem Link.begin_outbound (l : Link) : l.begin.outbound = l.outbound := by
  unfold Link.begin
  split
  · next hl hq => simp [Link.outbound, hl, hq]
  · rfl

theorem Link.begin_steady (l : Link) : l.Steady l.begin := by
  unfold Link.begin
  split
  · exact ⟨rfl, rfl, rfl, rfl⟩
  · exact .refl l

theorem sendMatrix_outbound (s : State) (m : MatrixMsg) :
    (s.sendMatrix m).link.outbound = s.link.outbound ++ [m] := by
  rw [State.sendMatrix, Link.begin_outbound]
  exact (List.append_assoc ..).symm

theorem sendMatrix_steady (s : State) (m : MatrixMsg) : s.link.Steady (s.sendMatrix m).link :=
  Link.begin_steady { s.link with queue := s.link.queue ++ [m] }

/-! ### The pool (R75, R76) -/

/-- The FREE tokens, ascending. -/
def State.freeTokens (s : State) : List Token := (List.finRange 255).filter fun k => s.token k = .free

theorem mem_freeTokens {s : State} {k : Token} : k ∈ s.freeTokens ↔ s.token k = .free := by
  simp [State.freeTokens]

theorem freeTokens_nodup (s : State) : s.freeTokens.Nodup := (List.nodup_finRange 255).filter _

theorem freeToken?_eq_head (s : State) : s.freeToken? = s.freeTokens.head? := by
  rw [State.freeToken?, select_eq_filter, State.freeTokens]
  congr 1

/-- The lowest FREE token is the first. -/
theorem freeTokens_head {s : State} {k : Token} (hk : s.token k = .free)
    (hl : ∀ j, j < k → s.token j ≠ .free) : s.freeTokens.head? = some k := by
  rw [← freeToken?_eq_head]
  exact select_head (by simpa [State.token] using hk) fun j hj =>
    Fin.not_lt.1 fun hjk => hl j hjk (by simpa [State.token] using hj)

/-- A token taken from the front of the FREE ones leaves the others. -/
theorem freeTokens_setToken {s : State} {k : Token} {ks : List Token} (h : s.freeTokens = k :: ks) :
    (s.setToken k .inUse).freeTokens = ks := by
  have hfilter : (s.setToken k .inUse).freeTokens = s.freeTokens.filter (· ≠ k) := by
    rw [State.freeTokens, State.freeTokens, List.filter_filter]
    refine List.filter_congr fun j _ => ?_
    by_cases hjk : j = k <;> simp [State.setToken_token, hjk]
  have hk : k ∉ ks := (List.nodup_cons.1 (h ▸ freeTokens_nodup s)).1
  rw [hfilter, h, List.filter_cons_of_neg (by simp)]
  exact List.filter_eq_self.2 fun j hj => by simpa using fun e : j = k => hk (e ▸ hj)

/-! ### One take asks the pool -/

/-- A take that has asked the pool at `now`: SENT with the token it got, or WAITING. -/
def Pending.asked (p : Pending) (now : Nat) : Option Token → Pending
  | some k => { p with phase := .sent, token := some k, instant := some now }
  | none => { p with phase := .waiting }

section
variable {s : State} {d : Dest} {p : Pending} {k : Token} {ks : List Token}

theorem requestToken_grants (hp : (s.entry d).pending = some p) (hk : s.freeTokens = k :: ks) :
    s.requestToken d = ((s.setToken k .inUse).setPending d (p.asked s.now (some k))).sendMatrix
      (.routeReq d p.source k) := by
  simp only [State.requestToken, hp, freeToken?_eq_head, hk, List.head?_cons, Pending.asked]

theorem requestToken_queues (hp : (s.entry d).pending = some p) (hk : s.freeTokens = []) :
    s.requestToken d = { s.setPending d (p.asked s.now none) with
      link := { s.link with waiting := s.link.waiting ++ [d] } } := by
  simp only [State.requestToken, hp, freeToken?_eq_head, hk, List.head?_nil, Pending.asked]
  rfl

theorem requestToken_entry_self (hp : (s.entry d).pending = some p) :
    (s.requestToken d).entry d
      = { s.entry d with pending := some (p.asked s.now s.freeTokens.head?) } := by
  cases hk : s.freeTokens with
  | nil => rw [requestToken_queues hp hk]; exact setPending_entry_self s d _
  | cons k ks =>
    rw [requestToken_grants hp hk]
    exact setPending_entry_self (s.setToken k .inUse) d _

theorem requestToken_token (hp : (s.entry d).pending = some p) (j : Token) :
    (s.requestToken d).token j = if j ∈ s.freeTokens.take 1 then .inUse else s.token j := by
  cases hk : s.freeTokens with
  | nil => rw [requestToken_queues hp hk]; rfl
  | cons k ks =>
    rw [requestToken_grants hp hk]
    simp only [State.token, sendMatrix_pool, List.take_succ_cons, List.take_zero, List.mem_singleton]
    exact s.setToken_token k .inUse j

theorem requestToken_freeTokens (hp : (s.entry d).pending = some p) :
    (s.requestToken d).freeTokens = s.freeTokens.tail := by
  cases hk : s.freeTokens with
  | nil => rw [requestToken_queues hp hk]; exact hk
  | cons k ks =>
    rw [requestToken_grants hp hk, List.tail_cons, ← freeTokens_setToken hk]
    simp only [State.freeTokens, State.token, sendMatrix_pool]
    rfl

theorem requestToken_waiting (hp : (s.entry d).pending = some p) :
    (s.requestToken d).link.waiting = s.link.waiting ++ [d].drop s.freeTokens.length := by
  cases hk : s.freeTokens with
  | nil => rw [requestToken_queues hp hk]; rfl
  | cons k ks =>
    rw [requestToken_grants hp hk, sendMatrix_waiting]
    simp [State.setPending]

theorem requestToken_outbound (hp : (s.entry d).pending = some p) :
    (s.requestToken d).link.outbound
      = s.link.outbound ++ s.freeTokens.head?.toList.map (.routeReq d p.source) := by
  cases hk : s.freeTokens with
  | nil => rw [requestToken_queues hp hk]; exact (List.append_nil _).symm
  | cons k ks => rw [requestToken_grants hp hk, sendMatrix_outbound]; rfl

theorem requestToken_steady (s : State) (d : Dest) : s.link.Steady (s.requestToken d).link := by
  cases hp : (s.entry d).pending with
  | none => rw [State.requestToken, hp]; exact .refl _
  | some p =>
    cases hk : s.freeTokens with
    | nil => rw [requestToken_queues hp hk]; exact ⟨rfl, rfl, rfl, rfl⟩
    | cons k ks => rw [requestToken_grants hp hk]; exact sendMatrix_steady _ _

end

theorem requestToken_counts (s : State) (d : Dest) : (s.requestToken d).map.dests = s.map.dests
    ∧ (s.requestToken d).map.sources = s.map.sources := by
  unfold State.requestToken
  split
  · exact ⟨rfl, rfl⟩
  · split <;> exact ⟨rfl, rfl⟩

/-- The asking writes no token but a FREE one. -/
theorem requestToken_token_of_not_free {s : State} {k : Token} (h : s.token k ≠ .free) (d : Dest) :
    (s.requestToken d).token k = s.token k := by
  cases hp : (s.entry d).pending with
  | none => rw [State.requestToken, hp]
  | some p =>
    rw [requestToken_token hp, if_neg fun hm => h (mem_freeTokens.1 (List.mem_of_mem_take hm))]

/-- Whether another take is due is not touched by the asking. -/
theorem requestToken_isDue_of_ne (s : State) {c d : Dest} (h : c ≠ d) :
    (s.requestToken d).isDue c = s.isDue c := by
  simp only [State.isDue, requestToken_entry_of_ne s h, since_of_same (requestToken_same s d)]

/-! ### Several takes ask the pool -/

/-- Some takes have shared the FREE tokens of a state: the first of them got the lowest, in their order,
and the others wait (R76). -/
structure TokensShared (ds : List Dest) (s t : State) : Prop where
  entry    : ∀ d, t.entry d = { s.entry d with
    pending := (s.entry d).pending.map fun p =>
      if d ∈ ds then p.asked s.now ((ds.zip s.freeTokens).lookup d) else p }
  steady   : s.link.Steady t.link
  token    : ∀ k, t.token k = if k ∈ s.freeTokens.take ds.length then .inUse else s.token k
  waiting  : t.link.waiting = s.link.waiting ++ ds.drop s.freeTokens.length
  outbound : t.link.outbound = s.link.outbound ++ (ds.zip s.freeTokens).filterMap fun p =>
    (s.entry p.1).pending.map fun q => .routeReq p.1 q.source p.2

/-- The takes behind the first share the tokens behind the first. -/
theorem TokensShared.cons {s t : State} {d : Dest} {ds : List Dest} {p : Pending}
    (hp : (s.entry d).pending = some p) (hd : d ∉ ds) (h : TokensShared ds (s.requestToken d) t) :
    TokensShared (d :: ds) s t := by
  have hnow : (s.requestToken d).now = s.now := requestToken_same s d .now (by decide)
  have hfree := requestToken_freeTokens hp
  have hother : ∀ c ∈ ds, (s.requestToken d).entry c = s.entry c := fun c hc =>
    requestToken_entry_of_ne s (ne_of_mem_of_not_mem hc hd)
  refine ⟨fun c => ?_, (requestToken_steady s d).trans h.steady, fun k => ?_, ?_, ?_⟩
  · rw [h.entry, hnow, hfree]
    by_cases hcd : c = d
    · subst hcd
      rw [requestToken_entry_self hp]
      cases s.freeTokens <;> simp [hd, hp]
    · rw [requestToken_entry_of_ne s hcd]
      have hbeq : (c == d) = false := beq_eq_false_iff_ne.2 hcd
      cases s.freeTokens <;> simp [hcd, hbeq, List.lookup_cons]
  · rw [h.token, hfree, requestToken_token hp]
    cases s.freeTokens with
    | nil => simp
    | cons j js => by_cases hkj : k = j <;> simp [hkj]
  · rw [h.waiting, hfree, requestToken_waiting hp]
    cases s.freeTokens <;> simp
  · rw [h.outbound, hfree, requestToken_outbound hp]
    cases s.freeTokens with
    | nil => simp
    | cons k ks =>
      have hsame : ((ds.zip ks).filterMap fun p =>
          ((s.requestToken d).entry p.1).pending.map fun q => MatrixMsg.routeReq p.1 q.source p.2)
          = (ds.zip ks).filterMap fun p =>
            (s.entry p.1).pending.map fun q => MatrixMsg.routeReq p.1 q.source p.2 :=
        List.filterMap_congr fun x hx => by rw [hother x.1 (List.of_mem_zip hx).1]
      simp [hsame, hp]

theorem foldl_requestToken_shared {ds : List Dest} (hds : ds.Nodup) {s : State}
    (hp : ∀ d ∈ ds, (s.entry d).pending ≠ none) : TokensShared ds s (ds.foldl State.requestToken s) := by
  induction ds generalizing s with
  | nil => exact ⟨fun d => by simp, .refl _, by simp, by simp, by simp⟩
  | cons d ds ih =>
    obtain ⟨hd, hds⟩ := List.nodup_cons.1 hds
    obtain ⟨p, hpd⟩ := Option.ne_none_iff_exists'.1 (hp d List.mem_cons_self)
    refine .cons hpd hd (ih hds fun c hc => ?_)
    rw [requestToken_entry_of_ne s (ne_of_mem_of_not_mem hc hd)]
    exact hp c (List.mem_cons_of_mem d hc)

theorem foldl_requestToken_counts (ds : List Dest) (s : State) :
    (ds.foldl State.requestToken s).map.dests = s.map.dests
      ∧ (ds.foldl State.requestToken s).map.sources = s.map.sources := by
  induction ds generalizing s with
  | nil => exact ⟨rfl, rfl⟩
  | cons d ds ih =>
    obtain ⟨hd, hs⟩ := ih (s.requestToken d)
    obtain ⟨hd1, hs1⟩ := requestToken_counts s d
    exact ⟨hd.trans hd1, hs.trans hs1⟩

theorem foldl_requestToken_same (ds : List Dest) (s : State) :
    SameBut [.map, .link] s (ds.foldl State.requestToken s) := SameBut.foldl requestToken_same ds s

/-! ### TAKE_FALLS_DUE -/

theorem isDue_eq_any (s : State) (d : Dest) : s.isDue d = (s.entry d).pending.any fun p =>
    p.phase = .held ∧ p.countdown = 0 ∧ p.offset ≤ s.since (s.entry d).group := by
  unfold State.isDue
  cases (s.entry d).pending with
  | none => rfl
  | some p => simp [beq_eq_decide, Bool.and_assoc]

/-- The takes that are due among all of the map, ascending. -/
theorem dispatchDue_all (s : State) :
    s.dispatchDue (select (fun e : Entry => e.pending.isSome) s.map.entries)
      = ((List.finRange 512).filter s.isDue).foldl State.requestToken s := by
  rw [State.dispatchDue, foldl_chosen requestToken_isDue_of_ne (select_nodup _ _), select_eq_filter,
    List.filter_filter]
  refine congrArg (fun l => List.foldl State.requestToken s l) (List.filter_congr fun d _ => ?_)
  change (s.isDue d && (s.entry d).pending.isSome) = s.isDue d
  rw [isDue_eq_any]
  cases (s.entry d).pending <;> simp

/-- Settles O33: those due ask in ascending order, each for the lowest token left. -/
theorem takesThatFallDueShareTheTokens : Obligations.TakesThatFallDueShareTheTokens := by
  unfold Obligations.TakesThatFallDueShareTheTokens
  intro τ s hr ho u due free
  have hdue : (List.finRange 512).filter u.isDue = due :=
    List.filter_congr fun d _ => isDue_eq_any u d
  have hpending : ∀ d ∈ due, (u.entry d).pending ≠ none := fun d hd hn => by
    rw [← hdue, List.mem_filter] at hd
    simp [State.isDue, hn] at hd
  have hnodup : due.Nodup := (List.nodup_finRange 512).filter _
  clear_value due
  generalize ht : due.foldl State.requestToken u = t
  have hshared : TokensShared due u t := ht ▸ foldl_requestToken_shared hnodup hpending
  have hsame : SameBut [.map, .link] u t := ht ▸ foldl_requestToken_same due u
  have hcounts := ht ▸ foldl_requestToken_counts due u
  have hnow : t.now = u.now := hsame .now (by decide)
  have hstep : u.dispatchDue (select (fun e : Entry => e.pending.isSome) u.map.entries) = t := by
    rw [dispatchDue_all, hdue, ht]
  have hrec : t.recorder = s.recorder := hsame .recorder (by decide)
  refine ⟨t, congrArg Host.Outcome.next ?_, (clock_same s τ).comp hsame (by decide) (by decide), hnow,
    hcounts.1, hcounts.2, fun d => ?_, hshared.steady, hshared.token, hshared.waiting,
    hshared.outbound⟩
  · exact (event_eq_paid hr τ _).trans ((congrArg State.paid hstep).trans (paid_of_owed (hrec ▸ ho)))
  · rw [hshared.entry, hnow, show u.freeTokens = free from rfl]
    refine congrArg (fun m => { s.entry d with pending := (s.entry d).pending.map m }) (funext fun p => ?_)
    by_cases hd : d ∈ due
    · rw [if_pos hd]
      cases (due.zip free).lookup d with
      | none => exact (if_pos hd).symm
      | some k => rfl
    · have hnone : (due.zip free).lookup d = none := List.lookup_eq_none_iff.2 fun x hx =>
        bne_iff_ne.2 (ne_of_mem_of_not_mem (List.of_mem_zip hx).1 hd).symm
      rw [if_neg hd, hnone]
      exact (if_neg hd).symm

end Sys2Proof.Machine
end

section
/-! A take that has asked for a token, and one that is due as soon as it is placed (R49, R51, R61). -/

namespace Sys2Proof.Machine

section
variable {s t : State} {d : Dest} {p : Pending}

theorem requestToken_asked (hp : (s.entry d).pending = some p) : Asked (s.requestToken d) d p := by
  have hentry := requestToken_entry_self hp
  have hnow : (s.requestToken d).now = s.now := requestToken_same s d .now (by decide)
  cases hk : s.freeTokens with
  | nil =>
    refine .inr ⟨by rw [hentry, hk]; rfl, by simp [requestToken_waiting hp, hk], fun k hfree => ?_⟩
    have hnone := requestToken_freeTokens hp
    rw [hk] at hnone
    exact List.not_mem_nil (hnone ▸ mem_freeTokens.2 hfree)
  | cons k ks =>
    exact .inl ⟨k, by rw [hentry, hk, hnow]; rfl, by simp [requestToken_token hp, hk]⟩

theorem requestToken_not_free {k : Token} (h : s.token k ≠ .free) (c : Dest) :
    (s.requestToken c).token k ≠ .free := by
  rwa [requestToken_token_of_not_free h]

theorem mem_waiting_requestToken (h : d ∈ s.link.waiting) (c : Dest) :
    d ∈ (s.requestToken c).link.waiting := by
  cases hp : (s.entry c).pending with
  | none => rwa [State.requestToken, hp]
  | some q => rw [requestToken_waiting hp]; exact List.mem_append_left _ h

/-- A take that has asked is not touched by another that asks. -/
theorem Asked.requestToken_of_ne {c : Dest} (h : Asked s d p) (hdc : d ≠ c) :
    Asked (s.requestToken c) d p := by
  have hentry := requestToken_entry_of_ne s hdc
  have hnow : (s.requestToken c).now = s.now := requestToken_same s c .now (by decide)
  obtain ⟨k, he, hk⟩ | ⟨he, hw, hfree⟩ := h
  · refine .inl ⟨k, by rw [hentry, hnow, he], ?_⟩
    rw [requestToken_token_of_not_free (by simp [hk]), hk]
  · exact .inr ⟨by rw [hentry, he], mem_waiting_requestToken hw c, fun k =>
      requestToken_not_free (hfree k) c⟩

theorem foldl_requestToken_asked {ds : List Dest} (hds : ds.Nodup) (hd : d ∈ ds)
    (hp : (s.entry d).pending = some p) : Asked (ds.foldl State.requestToken s) d p := by
  induction ds generalizing s with
  | nil => cases hd
  | cons c ds ih =>
    obtain ⟨hc, hds⟩ := List.nodup_cons.1 hds
    rw [List.foldl_cons]
    by_cases h : d = c
    · subst h
      have hkeep {l : List Dest} (hl : d ∉ l) {u : State} (hu : Asked u d p) :
          Asked (l.foldl State.requestToken u) d p := by
        induction l generalizing u with
        | nil => exact hu
        | cons e l ihl =>
          exact ihl (fun hm => hl (List.mem_cons_of_mem e hm))
            (hu.requestToken_of_ne fun h => hl (h ▸ List.mem_cons_self))
      exact hkeep hc (requestToken_asked hp)
    · exact ih hds ((List.mem_cons.1 hd).resolve_left h) (by rwa [requestToken_entry_of_ne s h])

/-- Whether a take has asked is read from the map, the link and the time. -/
theorem Asked.of_same {ps : List Part} (h : Asked s d p) (hst : SameBut ps s t)
    (hn : Part.now ∉ ps := by decide) (hm : Part.map ∉ ps := by decide)
    (hl : Part.link ∉ ps := by decide) : Asked t d p := by
  have hentry := entry_of_same hst hm d
  have hlink : t.link = s.link := hst .link hl
  have hnow : t.now = s.now := hst .now hn
  have htoken (k : Token) : t.token k = s.token k := by simp only [State.token, hlink]
  simpa only [Asked, hentry, hlink, hnow, htoken] using h

theorem dispatchDue_one (s : State) (d : Dest) :
    s.dispatchDue [d] = if s.isDue d then s.requestToken d else s := rfl

/-- A take that has just been placed is due when its placement has left no frame to count down and no
tick of its offset (R49). -/
theorem isDue_placed {n : NextTake} {pl : Placement} (hp : (s.entry d).pending = some (heldTake n pl)) :
    s.isDue d = true ↔ pl.countdown = 0 ∧ pl.offset ≤ s.since (s.entry d).group := by
  simp [State.isDue, hp, heldTake]

/-- A take that has just been placed asks for a token when it is due, and otherwise stays in HELD. -/
theorem dispatchDue_placed {n : NextTake} {pl : Placement}
    (hp : (s.entry d).pending = some (heldTake n pl)) :
    if pl.countdown = 0 ∧ pl.offset ≤ s.since (s.entry d).group then
      Asked (s.dispatchDue [d]) d (heldTake n pl)
    else ((s.dispatchDue [d]).entry d).pending = some (heldTake n pl) := by
  have hdue := isDue_placed hp
  rw [dispatchDue_one]
  split
  · rw [if_pos (hdue.2 ‹_›)]
    exact requestToken_asked hp
  · rw [if_neg (mt hdue.1 ‹_›)]
    exact hp

theorem dispatchDue_none (hp : (s.entry d).pending = none) : s.dispatchDue [d] = s := by
  rw [dispatchDue_one, State.isDue, hp]
  rfl

/-- The asking of one destination's take leaves the other fields of its entry. -/
theorem requestToken_entry_frame (s : State) (d : Dest) :
    (s.requestToken d).entry d
      = { s.entry d with pending := ((s.requestToken d).entry d).pending } := by
  cases hp : (s.entry d).pending with
  | none =>
    have h : s.requestToken d = s := by rw [State.requestToken, hp]
    rw [h]
  | some p => rw [requestToken_entry_self hp]

theorem dispatchDue_one_entry (s : State) (d : Dest) :
    (s.dispatchDue [d]).entry d
      = { s.entry d with pending := ((s.dispatchDue [d]).entry d).pending } := by
  rw [dispatchDue_one]
  split
  · exact requestToken_entry_frame s d
  · rfl

theorem dispatchDue_one_token_of_not_free {k : Token} (h : s.token k ≠ .free) (d : Dest) :
    (s.dispatchDue [d]).token k = s.token k := by
  rw [dispatchDue_one]
  split
  · exact requestToken_token_of_not_free h d
  · rfl

theorem dispatchDue_one_steady (s : State) (d : Dest) : s.link.Steady (s.dispatchDue [d]).link := by
  rw [dispatchDue_one]
  split
  · exact requestToken_steady s d
  · exact .refl _

theorem dispatchDue_one_onlyEntry (s : State) (d : Dest) : OnlyEntry d s (s.dispatchDue [d]) := by
  rw [dispatchDue_one]
  split
  · obtain ⟨hdests, hsources⟩ := requestToken_counts s d
    exact ⟨hdests, hsources, fun c hc => requestToken_entry_of_ne s hc⟩
  · exact ⟨rfl, rfl, fun _ _ => rfl⟩

end

theorem OnlyEntry.trans {d : Dest} {s t u : State} (h : OnlyEntry d s t) (k : OnlyEntry d t u) :
    OnlyEntry d s u := by
  obtain ⟨hd, hs, he⟩ := h
  obtain ⟨kd, ks, ke⟩ := k
  exact ⟨kd.trans hd, ks.trans hs, fun c hc => (ke c hc).trans (he c hc)⟩

/-- A map in which one entry has been written. -/
theorem onlyEntry_of_map {s t : State} {d : Dest} {e : Entry} (h : t.map = (s.setEntry d e).map) :
    OnlyEntry d s t :=
  ⟨(congrArg CrosspointMap.dests h :), (congrArg CrosspointMap.sources h :), fun c hc =>
    (by simp only [State.entry, h] : t.entry c = (s.setEntry d e).entry c).trans
      (s.setEntry_entry_of_ne d e hc)⟩

theorem entry_of_map {s t : State} {d : Dest} {e : Entry} (h : t.map = (s.setEntry d e).map) :
    t.entry d = e :=
  (by simp only [State.entry, h] : t.entry d = (s.setEntry d e).entry d).trans
    (s.setEntry_entry_self d e)

theorem setEntry_map_twice {s t : State} {d : Dest} {a b : Entry} (h : t.map = (s.setEntry d a).map) :
    (t.setEntry d b).map = (s.setEntry d b).map := by
  simp [State.setEntry, h]

end Sys2Proof.Machine
end

section
/-! O31: a pending take that ends, and one that takes its place (R46, R47, R59). -/

namespace Sys2Proof.Machine

/-! ### A pending take leaves its entry, and is reported (R59) -/

/-- The state in which the pending take `p` of a destination has left it, its change has been announced
and the take reported: R59 but for what follows in the entry. -/
def State.takeEnded (s : State) (d : Dest) (p : Pending) (r : TakeResult) : State :=
  let s1 := s.setEntry d { s.entry d with pending := none }
  ((if p.phase = .waiting then s1.dropWaiting d else s1).announceDest d).reportTake d p.ticket p.tag r
    p.deferred

theorem endPending_eq {s : State} {d : Dest} {p : Pending} (hp : (s.entry d).pending = some p)
    (r : TakeResult) : s.endPending d r
      = if r = .superseded then s.takeEnded d p r else (s.takeEnded d p r).promote d := by
  rw [State.endPending, hp]
  rfl

/-- The waiting list without a destination, where its take waits. -/
def State.waitingWithout (s : State) (d : Dest) : List Dest :=
  if (s.entry d).pending.any (·.phase = .waiting) then s.link.waiting.filter (· ≠ d) else s.link.waiting

/-- What the end of a take's stay writes: its entry, the waiting list, its tiles and its report. -/
structure TakeLeft (s t : State) (d : Dest) (p : Pending) (r : TakeResult) : Prop where
  same     : SameBut [.control, .map, .walls, .salvos, .link] s t
  map      : t.map = (s.setEntry d { s.entry d with pending := none }).map
  link     : t.link = { s.link with waiting := s.waitingWithout d }
  walls    : t.walls = (s.queueTiles (s.entry d).tiles).walls
  accounts : t.accounts = (s.reportTake d p.ticket p.tag r p.deferred).accounts

theorem takeEnded_left {s : State} {d : Dest} {p : Pending} (hp : (s.entry d).pending = some p)
    (r : TakeResult) : TakeLeft s (s.takeEnded d p r) d p r := by
  unfold State.takeEnded
  dsimp only
  generalize hu : (if p.phase = .waiting
    then (s.setEntry d { s.entry d with pending := none }).dropWaiting d
    else s.setEntry d { s.entry d with pending := none }) = u
  have hmap : u.map = (s.setEntry d { s.entry d with pending := none }).map := by
    rw [← hu]; split <;> rfl
  have hlink : u.link = { s.link with waiting := s.waitingWithout d } := by
    rw [← hu, State.waitingWithout, hp]
    by_cases hw : p.phase = .waiting
    · simp [hw, State.dropWaiting, bne, beq_eq_decide]
    · simp [hw]
  have hsame : SameBut [.map, .link] s u := by
    rw [← hu]
    split
    · exact (setEntry_same s d _).comp (dropWaiting_same _ d) (by decide) (by decide)
    · exact (setEntry_same s d _).mono (by decide)
  have htold : SameBut [.walls] u (u.announceDest d) := announceDest_same u d
  have hreport := reportTake_same (u.announceDest d) d p.ticket p.tag r p.deferred
  have hentry : u.entry d = { s.entry d with pending := none } := entry_of_map hmap
  have hboth := hsame.comp htold (rs := [.map, .link, .walls]) (by decide) (by decide)
  refine ⟨hboth.comp hreport (by decide) (by decide), ?_, ?_, ?_, ?_⟩
  · exact ((hreport .map (by decide)).trans (htold .map (by decide))).trans hmap
  · exact ((hreport .link (by decide)).trans (htold .link (by decide))).trans hlink
  · rw [hreport .walls (by decide), State.announceDest, hentry]
    exact queueTiles_walls (hsame .walls (by decide)) _
  · refine reportTake_accounts (accounts_of_same hboth) (hboth .groups (by decide)) ?_ _ _ _ _
    rw [announceDest_entry, hentry]

/-! ### A take is placed as the pending take (R47, R48) -/

/-- What the placing of a take writes: its entry and its tiles. -/
theorem placeHeld_writes (s : State) (d : Dest) (n : NextTake) (pl : Placement) :
    (s.placeHeld d n pl).map = (s.setEntry d { s.entry d with pending := some (heldTake n pl) }).map
      ∧ (s.placeHeld d n pl).walls = (s.queueTiles (s.entry d).tiles).walls := by
  have htold : SameBut [.walls] (s.setEntry d { s.entry d with pending := some (heldTake n pl) })
      (s.placeHeld d n pl) := announceDest_same _ d
  refine ⟨htold .map (by decide), ?_⟩
  change ((s.setEntry d { s.entry d with pending := some (heldTake n pl) }).announceDest d).walls = _
  rw [State.announceDest, State.setEntry_entry_self]
  exact queueTiles_walls (s := s) (u := s.setEntry d _) rfl _

/-- The report of a take that gives way to another: there is none where the entry held none. -/
def State.superseded (s : State) (d : Dest) : State :=
  match (s.entry d).pending with
  | none => s
  | some old => s.reportTake d old.ticket old.tag .superseded old.deferred

/-- A take has been placed as the pending take of a destination, in place of the one it held. -/
structure TakePlaced (s t : State) (d : Dest) (n : NextTake) (pl : Placement) : Prop where
  same     : SameBut [.control, .map, .walls, .salvos, .link] s t
  map      : t.map = (s.setEntry d { s.entry d with pending := some (heldTake n pl) }).map
  link     : t.link = { s.link with waiting := s.waitingWithout d }
  walls    : t.walls = (s.queueTiles (s.entry d).tiles).walls
  accounts : t.accounts = (s.superseded d).accounts

theorem arrive_places {s : State} {d : Dest}
    (h : ∀ old, (s.entry d).pending = some old → old.phase = .held ∨ old.phase = .waiting)
    (n : NextTake) (pl : Placement) :
    ∃ t, s.arrive d n pl = (false, t) ∧ TakePlaced s t d n pl := by
  cases hp : (s.entry d).pending with
  | none =>
    obtain ⟨hmap, hwalls⟩ := placeHeld_writes s d n pl
    have hsame := placeHeld_same s d n pl
    refine ⟨_, by rw [State.arrive, hp], hsame.mono (by decide), hmap, ?_, hwalls, ?_⟩
    · rw [link_of_same hsame, State.waitingWithout, hp]
      rfl
    · rw [State.superseded, hp]
      exact accounts_of_same hsame
  | some old =>
    have hleft := takeEnded_left hp .superseded
    have hentry := entry_of_map hleft.map
    obtain ⟨hmap, hwalls⟩ := placeHeld_writes (s.takeEnded d old .superseded) d n pl
    have hsame := placeHeld_same (s.takeEnded d old .superseded) d n pl
    refine ⟨(s.takeEnded d old .superseded).placeHeld d n pl, ?_,
      hleft.same.trans (hsame.mono (by decide)), ?_, (link_of_same hsame).trans hleft.link, ?_, ?_⟩
    · rw [State.arrive, hp]
      dsimp only
      rw [if_pos (h old hp), endPending_eq hp, if_pos rfl]
    · rw [hmap, hentry]
      exact setEntry_map_twice hleft.map
    · rw [hwalls, hentry]
      exact (queueTiles_walls hleft.walls _).trans (queueTiles_twice s _)
    · rw [State.superseded, hp]
      exact (accounts_of_same hsame).trans hleft.accounts

/-- The report of a next take that gives way to another. -/
def State.nextSuperseded (s : State) (d : Dest) : State :=
  match (s.entry d).next with
  | none => s
  | some m => s.reportTake d m.ticket m.tag .superseded false

theorem SameBut.symm {ps : List Part} {s t : State} (h : SameBut ps s t) : SameBut ps t s := by
  intro p hp
  have hp := h p hp
  cases p <;> exact Eq.symm hp

/-- Two ways of writing the map and the accounts come to one state. -/
theorem eq_withMap {s u v : State} (hu : SameBut [.control, .map, .salvos] s u)
    (hv : SameBut [.control, .salvos] s v) (ha : u.accounts = v.accounts) :
    u = { v with map := u.map } := by
  obtain ⟨hc, hs⟩ := accounts_eq_iff.1 ha
  have h : SameBut [.control, .map, .salvos] { v with map := u.map } u :=
    ((withMap_same v u.map).symm.mono (by decide)).trans ((hv.symm.mono (by decide)).trans hu)
  refine SameBut.eq fun p _ => ?_
  by_cases hp : p ∈ [Part.control, .map, .salvos]
  · simp only [List.mem_cons, List.not_mem_nil, or_false] at hp
    obtain rfl | rfl | rfl := hp
    exacts [hc, rfl, hs]
  · exact h p hp

theorem nextSuperseded_same (s : State) (d : Dest) :
    SameBut [.control, .salvos] s (s.nextSuperseded d) := by
  unfold State.nextSuperseded
  split
  · exact .refl _ _
  · exact reportTake_same s d _ _ _ _

theorem endNext_superseded_accounts (s : State) (d : Dest) :
    (s.endNext d .superseded).accounts = (s.nextSuperseded d).accounts := by
  unfold State.endNext State.nextSuperseded
  cases (s.entry d).next with
  | none => rfl
  | some m =>
    exact reportTake_accounts (s := s) (u := s.setEntry d _) rfl rfl (by rw [State.setEntry_entry_self])
      _ _ _ _

theorem setEntry_self (s : State) (d : Dest) : s.setEntry d (s.entry d) = s := by
  simp [State.setEntry, State.entry]

theorem endNext_map (s : State) (d : Dest) (r : TakeResult) :
    (s.endNext d r).map = (s.setEntry d { s.entry d with next := none }).map := by
  unfold State.endNext
  split
  · next hn =>
    rw [← hn]
    exact (congrArg State.map (setEntry_self s d)).symm
  · exact reportTake_same _ d _ _ _ _ .map (by decide)

/-- A take arrives behind one in flight: it becomes the next take. -/
theorem arrive_queues {s : State} {d : Dest} {old : Pending} (hp : (s.entry d).pending = some old)
    (hf : old.inFlight) (n : NextTake) (pl : Placement) :
    s.arrive d n pl
      = (true, { s.nextSuperseded d with map := (s.setEntry d { s.entry d with next := some n }).map }) := by
  have hnot : ¬ (old.phase = .held ∨ old.phase = .waiting) := by
    obtain h | h := hf <;> simp [h]
  have hset := setEntry_same (s.endNext d .superseded) d { s.entry d with next := some n }
  have hmap := setEntry_map_twice (b := { s.entry d with next := some n }) (endNext_map s d .superseded)
  rw [State.arrive, hp]
  dsimp only
  rw [if_neg hnot, endNext_entry_self, ← hmap]
  exact congrArg _ (eq_withMap ((endNext_same s d _).comp hset (by decide) (by decide))
    (nextSuperseded_same s d) ((accounts_of_same hset).trans (endNext_superseded_accounts s d)))

end Sys2Proof.Machine
end

section
/-! O31: the TAKE order. -/

namespace Sys2Proof.Machine

/-- The order of a take of `x` on `d` by panel `p`, which passes the access check, has come to be
served. -/
structure TakeAsked (s : State) (o : Order) (d : Dest) (x : Source) (p : PanelNo) : Prop where
  dest   : read16 o.payload 0 = d
  source : read16 o.payload 2 = x
  panel  : read8 o.payload 4 = p
  passes : s.accessCheck p d (some x) = none

section
variable {s t : State} {o : Order} {d : Dest} {x : Source} {p : PanelNo}

theorem serveTake_queued (h : TakeAsked s o d x p)
    (ha : s.arrive d ⟨x, p, o.ticket, none⟩ (s.placement (s.entry d).group) = (true, t)) :
    serveTake o s = ⟨t, .scheduled, takePayload (s.entry d).group none⟩ := by
  simp only [serveTake, h.dest, h.source, h.panel, dest?_val, source?_val, panel?_val, h.passes, ha]

theorem serveTake_placed (h : TakeAsked s o d x p)
    (ha : s.arrive d ⟨x, p, o.ticket, none⟩ (s.placement (s.entry d).group) = (false, t)) :
    serveTake o s = ⟨t.dispatchDue [d], .scheduled,
      takePayload (s.entry d).group (some (s.placement (s.entry d).group))⟩ := by
  simp only [serveTake, h.dest, h.source, h.panel, dest?_val, source?_val, panel?_val, h.passes, ha]

/-- The pool after a take has been placed is the one before. -/
theorem TakePlaced.token {n : NextTake} {pl : Placement} (h : TakePlaced s t d n pl) (k : Token) :
    t.token k = s.token k := by
  simp only [State.token, h.link]

/-- What a take that is due as soon as it is placed gets from a pool with a FREE token: the lowest. -/
theorem TakePlaced.requestToken_grants {n : NextTake} {pl : Placement} (h : TakePlaced s t d n pl)
    {k : Token} (hk : s.token k = .free) (hl : ∀ j, j < k → s.token j ≠ .free) :
    (t.requestToken d).entry d
        = { s.entry d with pending := some ((heldTake n pl).asked s.now (some k)) }
      ∧ (t.requestToken d).link.outbound = s.link.outbound ++ [.routeReq d n.source k]
      ∧ (t.requestToken d).link.waiting = s.waitingWithout d
      ∧ s.link.Steady (t.requestToken d).link
      ∧ ∀ j, (t.requestToken d).token j = if j = k then .inUse else s.token j := by
  have hentry := entry_of_map h.map
  have hp : (t.entry d).pending = some (heldTake n pl) := by rw [hentry]
  have hnow : t.now = s.now := h.same .now (by decide)
  have hhead : t.freeTokens.head? = some k :=
    freeTokens_head ((h.token k).trans hk) fun j hj => by rw [h.token]; exact hl j hj
  obtain ⟨ks, hks⟩ := List.head?_eq_some_iff.1 hhead
  refine ⟨?_, ?_, ?_, ?_, fun j => ?_⟩
  · rw [requestToken_entry_self hp, hhead, hentry, hnow]
  · rw [requestToken_outbound hp, hhead, h.link]
    rfl
  · rw [requestToken_waiting hp, hks, h.link]
    simp
  · refine Link.Steady.trans ?_ (requestToken_steady t d)
    rw [h.link]
    exact ⟨rfl, rfl, rfl, rfl⟩
  · rw [requestToken_token hp, hks, h.token]
    simp

/-- With no FREE token it waits, behind the others. -/
theorem TakePlaced.requestToken_queues {n : NextTake} {pl : Placement} (h : TakePlaced s t d n pl)
    (hk : ∀ k, s.token k ≠ .free) :
    (t.requestToken d).entry d
        = { s.entry d with pending := some { heldTake n pl with phase := .waiting } }
      ∧ (t.requestToken d).link = { s.link with waiting := s.waitingWithout d ++ [d] } := by
  have hentry := entry_of_map h.map
  have hp : (t.entry d).pending = some (heldTake n pl) := by rw [hentry]
  have hnil : t.freeTokens = [] := List.eq_nil_iff_forall_not_mem.2 fun k hm =>
    hk k ((h.token k).symm.trans (mem_freeTokens.1 hm))
  constructor
  · rw [requestToken_entry_self hp, hnil, hentry]
    rfl
  · rw [Machine.requestToken_queues hp hnil, h.link]

end

/-- Settles O31: the take arrives behind one in flight, or takes the place of one that is not. -/
theorem takeIsPlacedOrQueued : Obligations.TakeIsPlacedOrQueued := by
  unfold Obligations.TakeIsPlacedOrQueued
  intro τ s o d x p hlaw h hd hx hp hc e u pl new
  have hasked : TakeAsked u o d x p := ⟨hd, hx, hp, (atDesk_accessCheck ..).trans hc⟩
  have howed {t : State} {ps : List Part} (ht : SameBut ps u t) (hr : Part.recorder ∉ ps) :
      t.recorder.high = [] := (congrArg Recorder.high (ht .recorder hr)).trans h.owed
  refine ⟨fun old hold hflying => ?_, fun hstays => ?_⟩
  · have hserved := serveTake_queued hasked (arrive_queues (s := u) hold hflying new pl)
    exact congrArg Host.Outcome.next (serve_answer h τ hserved
      (howed ((nextSuperseded_same u d).comp (withMap_same _ _) (rs := [.control, .salvos, .map])
        (by decide) (by decide)) (by decide)))
  · obtain ⟨t, ht, hplaced⟩ := arrive_places (s := u) hstays new pl
    have hserved := serveTake_placed hasked ht
    have hsame := dispatchDue_same t [d]
    have hall : SameBut [.control, .map, .walls, .salvos, .link] u (t.dispatchDue [d]) :=
      hplaced.same.trans (hsame.mono (by decide))
    have hentry := entry_of_map hplaced.map
    have hdue := isDue_placed (s := t) (d := d) (n := new) (pl := pl) (by rw [hentry])
    have hsince : t.since (t.entry d).group = u.since e.group := by
      rw [since_of_same hplaced.same, hentry]
      rfl
    rw [hsince] at hdue
    obtain ⟨hcontrol, hsalvos⟩ :=
      accounts_eq_iff.1 ((accounts_of_same hsame).trans hplaced.accounts)
    refine ⟨_, congrArg Host.Outcome.next (serve_answer h τ hserved (howed hall (by decide))),
      ?_, ?_, ?_, hsalvos, ?_, ?_, fun hlater => ?_, fun hcount hoffset => ⟨fun k hk hl => ?_, fun hk => ?_⟩⟩
    · exact (((atDesk_same s τ o).mono (by decide)).trans (hall.mono (by decide))).trans
        ((withControl_same _ _).mono (by decide))
    · exact hall .now (by decide)
    · exact congrArg (fun c => Control.answered c o .scheduled _) hcontrol
    · refine queued_of_walls ?_ (hlaw.nodup d)
      exact (hsame .walls (by decide)).trans (hplaced.walls.trans (queueTiles_walls (s := s) (u := u) rfl _))
    · exact (onlyEntry_of_map hplaced.map).trans (dispatchDue_one_onlyEntry t d)
    · have hstays : t.dispatchDue [d] = t := by rw [dispatchDue_one, if_neg (mt hdue.1 hlater)]
      rw [hstays]
      exact ⟨hentry, hplaced.link⟩
    · rw [dispatchDue_one, if_pos (hdue.2 ⟨hcount, hoffset⟩)]
      exact hplaced.requestToken_grants hk hl
    · rw [dispatchDue_one, if_pos (hdue.2 ⟨hcount, hoffset⟩)]
      exact hplaced.requestToken_queues hk

end Sys2Proof.Machine
end

section
/-! A pending take ends, and the next take of its destination is promoted or ends with it (R59 to R62). -/

namespace Sys2Proof.Machine

/-- What the next take of a destination becomes when the pending take ends: the pending take, placed
afresh while the link is UP (R61). -/
def State.promotedTake (s : State) (d : Dest) : Option Pending :=
  if s.link.state = .up then (s.entry d).next.map fun n => heldTake n (s.placement (s.entry d).group)
  else none

section
variable {s t : State} {d : Dest}

theorem promotedTake_none (h : (s.entry d).next = none ∨ s.link.state ≠ .up) : s.promotedTake d = none := by
  obtain h | h := h <;> simp [State.promotedTake, h]

theorem promotedTake_some {n : NextTake} (hn : (s.entry d).next = some n) (hl : s.link.state = .up) :
    s.promotedTake d = some (heldTake n (s.placement (s.entry d).group)) := by
  simp [State.promotedTake, hn, hl]

/-- A promotion reads the link's state, and of the map the next take and the group. -/
theorem promotedTake_congr (hl : t.link.state = s.link.state)
    (hn : (t.entry d).next = (s.entry d).next) (hg : (t.entry d).group = (s.entry d).group)
    (hpl : t.placement (s.entry d).group = s.placement (s.entry d).group) :
    t.promotedTake d = s.promotedTake d := by
  simp only [State.promotedTake, hl, hn, hg, hpl]

/-- Only the pending take is reported where no next take ends with it. -/
theorem reportTakes_pending {p : Pending} (hp : (s.entry d).pending = some p) (r : TakeResult)
    {both : Bool} (h : (s.entry d).next = none ∨ both = false) :
    s.reportTakes d r both = s.reportTake d p.ticket p.tag r p.deferred := by
  simp only [State.reportTakes, hp]
  obtain hn | rfl := h
  · rw [hn]
  · cases (s.entry d).next <;> rfl

/-- A next take that ends with the pending take is reported after it. -/
theorem reportTakes_both {p : Pending} {n : NextTake} (hp : (s.entry d).pending = some p)
    (hn : (s.entry d).next = some n) (r : TakeResult) : s.reportTakes d r true
      = (s.reportTake d p.ticket p.tag r p.deferred).reportTake d n.ticket n.tag .cancelled false := by
  simp only [State.reportTakes, hp, hn]

/-- The pending take of a destination has ended, and its next take has been promoted or has ended too. -/
structure TakeEnds (s t : State) (d : Dest) (r : TakeResult) : Prop where
  same     : SameBut [.control, .map, .walls, .salvos, .link] s t
  map      : t.map = (s.setEntry d { s.entry d with pending := s.promotedTake d, next := none }).map
  link     : t.link = { s.link with waiting := s.waitingWithout d }
  walls    : t.walls = (s.queueTiles (s.entry d).tiles).walls
  accounts : t.accounts = (s.reportTakes d r (s.link.state != .up)).accounts

/-- What follows when no take was waiting behind. -/
theorem TakeLeft.ends_alone {p : Pending} {r : TakeResult} (h : TakeLeft s t d p r)
    (hp : (s.entry d).pending = some p) (hn : (s.entry d).next = none) : TakeEnds s t d r where
  same := h.same
  map := by
    rw [h.map, promotedTake_none (.inl hn), ← hn]
  link := h.link
  walls := h.walls
  accounts := by
    rw [h.accounts, reportTakes_pending hp r (.inl hn)]

/-- What follows when the next take is promoted. -/
theorem TakeLeft.ends_promoted {p : Pending} {r : TakeResult} (h : TakeLeft s t d p r)
    (hp : (s.entry d).pending = some p) {n : NextTake} (hn : (s.entry d).next = some n)
    (hl : s.link.state = .up) :
    TakeEnds s ((t.setEntry d { t.entry d with next := none }).placeHeld d n
      (t.placement (t.entry d).group)) d r := by
  have hentry := entry_of_map h.map
  generalize hu : t.setEntry d { t.entry d with next := none } = u
  have hsame : SameBut [.map] t u := hu ▸ setEntry_same t d _
  have humap : u.map = (s.setEntry d { s.entry d with pending := none, next := none }).map := by
    rw [← hu, hentry]
    exact setEntry_map_twice h.map
  have huentry := entry_of_map humap
  have hplacement : t.placement (t.entry d).group = s.placement (s.entry d).group := by
    rw [placement_of_same h.same, hentry]
  rw [hplacement]
  obtain ⟨hmap, hwalls⟩ := placeHeld_writes u d n (s.placement (s.entry d).group)
  have hplaced := placeHeld_same u d n (s.placement (s.entry d).group)
  have hboth := hsame.comp hplaced (rs := [.map, .walls]) (by decide) (by decide)
  refine ⟨h.same.trans (hboth.mono (by decide)), ?_, (link_of_same hboth).trans h.link, ?_, ?_⟩
  · rw [hmap, huentry, promotedTake_some hn hl]
    exact setEntry_map_twice humap
  · rw [hwalls, huentry]
    exact (queueTiles_walls ((hsame .walls (by decide)).trans h.walls) _).trans (queueTiles_twice s _)
  · rw [accounts_of_same hboth, h.accounts, reportTakes_pending hp r (.inr (by rw [hl]; rfl))]

/-- What follows when the next take ends CANCELLED. -/
theorem TakeLeft.ends_cancelled {p : Pending} {r : TakeResult} (h : TakeLeft s t d p r)
    (hp : (s.entry d).pending = some p) {n : NextTake} (hn : (s.entry d).next = some n)
    (hl : s.link.state ≠ .up) : TakeEnds s (t.endNext d .cancelled) d r := by
  have hentry := entry_of_map h.map
  have htn : (t.entry d).next = some n := by rw [hentry]; exact hn
  have hsame := endNext_same t d .cancelled
  refine ⟨h.same.trans (hsame.mono (by decide)), ?_, (link_of_same hsame).trans h.link,
    (hsame .walls (by decide)).trans h.walls, ?_⟩
  · rw [endNext_map, hentry, promotedTake_none (.inr hl)]
    exact setEntry_map_twice h.map
  · have hreport := reportTake_same s d p.ticket p.tag r p.deferred
    have hboth : (s.link.state != .up) = true := bne_iff_ne.2 hl
    rw [hboth, reportTakes_both hp hn, State.endNext, htn]
    refine reportTake_accounts (s := s.reportTake d p.ticket p.tag r p.deferred)
      (u := t.setEntry d _) h.accounts ?_ ?_ _ _ _ _
    · exact (h.same .groups (by decide)).trans (hreport .groups (by decide)).symm
    · rw [State.setEntry_entry_self, reportTake_entry, hentry]

/-- A take that ends with any result but SUPERSEDED makes room for the next take. -/
theorem endPending_ends {p : Pending} (hp : (s.entry d).pending = some p) {r : TakeResult}
    (hr : r ≠ .superseded) : TakeEnds s (s.endPending d r) d r := by
  have hleft := takeEnded_left hp r
  have hentry := entry_of_map hleft.map
  rw [endPending_eq hp, if_neg hr, State.promote, hentry, hleft.link]
  cases hn : (s.entry d).next with
  | none => exact hleft.ends_alone hp hn
  | some n =>
    by_cases hl : s.link.state = .up
    · have hends := hleft.ends_promoted hp hn hl
      rw [hentry] at hends
      simpa only [hl, if_true] using hends
    · have hends := hleft.ends_cancelled hp hn hl
      simpa only [if_neg hl] using hends

/-- The entry of a destination whose take has ended. -/
theorem TakeEnds.entry {r : TakeResult} (h : TakeEnds s t d r) :
    t.entry d = { s.entry d with pending := s.promotedTake d, next := none } := entry_of_map h.map

end

end Sys2Proof.Machine
end

section
/-! Channels that log a mark each in one event (R144, R146). -/

namespace Sys2Proof.Machine

/-- The recorder unit's own words for the channels that record a destination. -/
theorem recordingOn_eq (s : State) (d : Dest) : s.recordingOn d = s.recordersOf d := by
  rw [State.recordingOn, select_eq_filter, State.recordersOf]
  refine List.filter_congr fun c _ => ?_
  change ((s.chan c).state == .recording && (s.chan c).bound == some d) = _
  simp [beq_eq_decide]

theorem mem_recordersOf {s : State} {d : Dest} {c : ChannelNo} : c ∈ s.recordersOf d ↔
    (s.chan c).state = .recording ∧ (s.chan c).bound = some d := by
  simp [State.recordersOf]

theorem recordersOf_nodup (s : State) (d : Dest) : (s.recordersOf d).Nodup :=
  (List.nodup_finRange 16).filter _

/-- Which channels record a destination is read from their states and bindings. -/
theorem recordersOf_congr {s t : State} (h : ∀ c, (t.chan c).state = (s.chan c).state
    ∧ (t.chan c).bound = (s.chan c).bound) (d : Dest) : t.recordersOf d = s.recordersOf d :=
  List.filter_congr fun c _ => by rw [(h c).1, (h c).2]

theorem marksHigh_congr {s t : State} {l : List ChannelNo} (h : ∀ c ∈ l, t.chan c = s.chan c) :
    t.marksHigh l = s.marksHigh l := by
  have hfilter : (l.filter fun c => (t.chan c).marks.length = 23)
      = l.filter fun c => (s.chan c).marks.length = 23 :=
    List.filter_congr fun c hc => by rw [h c hc]
  rw [State.marksHigh, State.marksHigh, hfilter]
  exact List.map_congr_left fun c hc => by rw [h c (List.mem_of_mem_filter hc)]

/-- An action on one channel that logs one mark there: the other channels are left alone, and a
MARKS_HIGH is owed for a list that has risen to 24. -/
structure LogsOwn (f : State → ChannelNo → State) : Prop where
  other : ∀ s c b, b ≠ c → (f s c).chan b = s.chan b
  high  : ∀ s c, (f s c).recorder.high = s.recorder.high ++ s.marksHigh [c]

theorem LogsOwn.foldl_high {f : State → ChannelNo → State} (h : LogsOwn f) {l : List ChannelNo}
    (hl : l.Nodup) (s : State) :
    (l.foldl f s).recorder.high = s.recorder.high ++ s.marksHigh l :=
  (foldl_part (I := fun _ => True) (part := fun s => s.recorder.high)
    (act := fun s c a => a ++ s.marksHigh [c]) (fun _ _ => trivial) (fun s c _ => h.high s c)
    (fun s c b _ hb => funext fun a => congrArg (a ++ ·)
      (marksHigh_congr fun x hx => by rw [List.mem_singleton.1 hx]; exact h.other s c b hb)) hl
    trivial).trans (foldl_marksHigh s l _)

theorem LogsOwn.foldl_chan {f : State → ChannelNo → State} (h : LogsOwn f)
    {new : State → ChannelNo → Channel} (hself : ∀ s c, (f s c).chan c = new s c)
    (hnew : ∀ s c b, b ≠ c → new (f s c) b = new s b) {l : List ChannelNo} (hl : l.Nodup) (s : State)
    (c : ChannelNo) : (l.foldl f s).chan c = if c ∈ l then new s c else s.chan c := by
  split
  · exact foldl_own (I := fun _ => True) (get := State.chan) (fun _ _ => trivial)
      (fun s c _ => hself s c) h.other (fun s c b _ => hnew s c b) hl trivial ‹_›
  · exact foldl_untouched State.chan f h.other l s c ‹_›

/-! ### SUSPECT marks (R144) -/

/-- The SUSPECT mark of one channel, of a destination with the entry `e`. -/
def State.markSuspect (e : Entry) (s : State) (c : ChannelNo) : State :=
  s.logMark c ⟨.suspect, e.group, s.stamp e.group, (s.chan c).clip, some e.source, some e.source⟩

theorem logSuspect_eq (s : State) (d : Dest) :
    s.logSuspect d = (s.recordersOf d).foldl (State.markSuspect (s.entry d)) s := by
  rw [State.logSuspect, recordingOn_eq]
  rfl

theorem markSuspect_logsOwn (e : Entry) : LogsOwn (State.markSuspect e) where
  other s c _ hb := logMark_chan_of_ne s c _ hb
  high s c := logMark_high s c _

section
variable (s : State) (d : Dest)

theorem logSuspect_high : (s.logSuspect d).recorder.high
    = s.recorder.high ++ s.marksHigh (s.recordersOf d) := by
  rw [logSuspect_eq]
  exact (markSuspect_logsOwn _).foldl_high (recordersOf_nodup s d) s

theorem logSuspect_queue : (s.logSuspect d).recorder.queue = s.recorder.queue := by
  rw [logSuspect_eq]
  exact foldl_keeps (f := State.markSuspect (s.entry d)) (I := fun u => u.recorder.queue = s.recorder.queue)
    (fun c hu => (logMark_queue _ c _).trans hu) _ rfl

theorem logSuspect_line : (s.logSuspect d).recorder.line = s.recorder.line := by
  rw [logSuspect_eq]
  exact foldl_keeps (f := State.markSuspect (s.entry d)) (I := fun u => u.recorder.line = s.recorder.line)
    (fun c hu => (logMark_line _ c _).trans hu) _ rfl

theorem logSuspect_chan (c : ChannelNo) : (s.logSuspect d).chan c
    = if c ∈ s.recordersOf d then s.suspectChannel d c else s.chan c := by
  rw [logSuspect_eq]
  refine (markSuspect_logsOwn (s.entry d)).foldl_chan (new := fun u c => (u.chan c).log ⟨.suspect,
    (s.entry d).group, u.stamp (s.entry d).group, (u.chan c).clip, some (s.entry d).source,
    some (s.entry d).source⟩) (fun u b => logMark_chan_self u b _) (fun u c b hb => ?_)
    (recordersOf_nodup s d) s c
  rw [(markSuspect_logsOwn (s.entry d)).other u c b hb, State.markSuspect,
    stamp_of_same (logMark_same u c _)]

end

end Sys2Proof.Machine
end

section
/-! O35: a take times out (R54, R55, R59, R61, R78, R144). -/

namespace Sys2Proof.Machine

/-! ### The suspect flag (R4, R12) -/

theorem setSuspect_map (s : State) (d : Dest) (v : Bool) :
    (s.setSuspect d v).map = (s.setEntry d { s.entry d with suspect := v }).map := by
  unfold State.setSuspect
  split
  · next h =>
    rw [← h]
    exact (congrArg State.map (setEntry_self s d)).symm
  · exact announceDest_same _ d .map (by decide)

/-- Whether or not the flag has changed, the tiles that are queued next are queued once. -/
theorem setSuspect_queueTiles (s : State) (d : Dest) (v : Bool) :
    ((s.setSuspect d v).queueTiles (s.entry d).tiles).walls = (s.queueTiles (s.entry d).tiles).walls := by
  unfold State.setSuspect
  split
  · rfl
  · rw [State.announceDest, State.setEntry_entry_self]
    exact (queueTiles_twice _ _).trans (queueTiles_walls (s := s) (u := s.setEntry d _) rfl _)

/-! ### The end of the overdue countdown -/

/-- The token of a take becomes STALE, recorded with its destination (R78). -/
def State.makeStale (s : State) (d : Dest) : Option Token → State
  | none => s
  | some k => s.setToken k (.stale d)

theorem makeStale_same (s : State) (d : Dest) (k : Option Token) : SameBut [.link] s (s.makeStale d k) := by
  cases k with
  | none => exact .refl _ _
  | some k => exact setToken_same s k _

theorem makeStale_link {s u : State} (h : u.link = s.link) (d : Dest) (k : Option Token) :
    (u.makeStale d k).link = (s.makeStale d k).link := by
  cases k with
  | none => exact h
  | some k => simp only [State.makeStale, State.setToken, h]

theorem makeStale_link_state (s : State) (d : Dest) (k : Option Token) :
    (s.makeStale d k).link.state = s.link.state := by
  cases k <;> rfl

theorem timeOut_eq {s : State} {d : Dest} {p : Pending} (hp : (s.entry d).pending = some p) :
    s.timeOut d
      = (((s.setSuspect d true).makeStale d p.token).logSuspect d).endPending d .timedOut := by
  rw [State.timeOut, hp]
  rfl

/-- A pending take has timed out. -/
structure TakeTimesOut (s t : State) (d : Dest) (p : Pending) : Prop where
  same     : SameBut [.control, .map, .walls, .salvos, .link, .recorder] s t
  map      : t.map = (s.setEntry d
    { s.entry d with suspect := true, pending := s.promotedTake d, next := none }).map
  link     : t.link = (s.makeStale d p.token).link
  walls    : t.walls = (s.queueTiles (s.entry d).tiles).walls
  accounts : t.accounts = (s.reportTakes d .timedOut (s.link.state != .up)).accounts
  chan     : ∀ c, t.chan c = if c ∈ s.recordersOf d then s.suspectChannel d c else s.chan c
  high     : t.recorder.high = s.recorder.high ++ s.marksHigh (s.recordersOf d)
  queue    : t.recorder.queue = s.recorder.queue
  line     : t.recorder.line = s.recorder.line

theorem timeOut_timesOut {s : State} {d : Dest} {p : Pending} (hp : (s.entry d).pending = some p)
    (hph : p.phase = .overdue) : TakeTimesOut s (s.timeOut d) d p := by
  rw [timeOut_eq hp]
  have hsus := setSuspect_same s d true
  have hstale := makeStale_same (s.setSuspect d true) d p.token
  have hsame : SameBut [.map, .walls, .link] s _ := hsus.comp hstale (by decide) (by decide)
  have humap := (hstale .map (by decide)).trans (setSuspect_map s d true)
  have hulink := makeStale_link (link_of_same hsus) d p.token
  have huwalls := hstale .walls (by decide)
  generalize (s.setSuspect d true).makeStale d p.token = u at *
  have hlog := logSuspect_same u d
  generalize hv : u.logSuspect d = v at hlog ⊢
  have hvmap : v.map = (s.setEntry d { s.entry d with suspect := true }).map :=
    (hlog .map (by decide)).trans humap
  have hboth : SameBut [.map, .walls, .link, .recorder] s v := hsame.comp hlog (by decide) (by decide)
  have huentry := entry_of_map humap
  have hventry := entry_of_map hvmap
  have hvlink : v.link = (s.makeStale d p.token).link := (link_of_same hlog).trans hulink
  have hstate : v.link.state = s.link.state := hvlink ▸ makeStale_link_state s d p.token
  have hwait : p.phase ≠ .waiting := by rw [hph]; decide
  have hends : TakeEnds v (v.endPending d .timedOut) d .timedOut :=
    endPending_ends (p := p) (by rw [hventry]; exact hp) (by decide)
  have hpromoted : v.promotedTake d = s.promotedTake d :=
    promotedTake_congr hstate (by rw [hventry]) (by rw [hventry]) (placement_of_same hboth ..)
  have hchans (c : ChannelNo) : u.chan c = s.chan c := chan_of_same hsame (c := c)
  have hrecorders : u.recordersOf d = s.recordersOf d :=
    recordersOf_congr (fun c => by rw [hchans c]; exact ⟨rfl, rfl⟩) d
  have hrec : (v.endPending d .timedOut).recorder = v.recorder := hends.same .recorder (by decide)
  have hurec : u.recorder = s.recorder := hsame .recorder (by decide)
  refine ⟨hboth.comp hends.same (by decide) (by decide), ?_, ?_, ?_, ?_, fun c => ?_,
    ?_, ?_, ?_⟩
  · rw [hends.map, hventry, hpromoted]
    exact setEntry_map_twice hvmap
  · rw [hends.link, ← hvlink, State.waitingWithout, hventry, hp]
    simp [hwait]
  · rw [hends.walls, hventry]
    exact (queueTiles_walls ((hlog .walls (by decide)).trans huwalls) _).trans
      (setSuspect_queueTiles s d true)
  · rw [hends.accounts, hstate]
    exact reportTakes_accounts (accounts_of_same hboth) (hboth .groups (by decide)) (by rw [hventry])
      (by rw [hventry]) (by rw [hventry]) _ _
  · rw [chan_of_same hends.same, ← hv, logSuspect_chan, hrecorders, hchans, State.suspectChannel,
      State.suspectChannel, huentry, hchans, stamp_of_same hsame]
  · rw [hrec, ← hv, logSuspect_high, hrecorders, hurec, marksHigh_congr fun c _ => hchans c]
  · rw [hrec, ← hv, logSuspect_queue, hurec]
  · rw [hrec, ← hv, logSuspect_line, hurec]

end Sys2Proof.Machine
end

section
/-! O35: OVERDUE_ENTRY and TAKE_TIMED_OUT. -/

namespace Sys2Proof.Machine

section
variable {s t : State} {d : Dest} {p : Pending}

theorem exec_overdueEntry (hr : s.pins.reset = false) (ho : s.recorder.high = [])
    (hp : (s.entry d).pending = some p) (hph : p.phase = .sent) (hl : p.landing = 0) :
    exec (.overdueEntry d) s = .next (s.setPending d (p.enterOverdue s.sched.timeout)) := by
  change execOverdueEntry d s = _
  simp only [execOverdueEntry, hp, hph, hl, and_self, if_true]
  rw [event_now_eq_paid hr]
  exact congrArg Host.Outcome.next (paid_of_owed ho)

theorem exec_takeTimedOut (hr : s.pins.reset = false) (hp : (s.entry d).pending = some p)
    (hph : p.phase = .overdue) (hc : p.overdue = some 1) :
    exec (.takeTimedOut d) s = .next ((s.timeOut d).dispatchDue [d]).paid := by
  change execTakeTimedOut d s = _
  simp only [execTakeTimedOut, hp, hph, hc, and_self, if_true]
  rw [event_now_eq_paid hr]

theorem paid_same (s : State) : SameBut [.control, .recorder] s s.paid :=
  flushHigh_eq_paid s ▸ flushHigh_same s

theorem TakeTimesOut.entry (h : TakeTimesOut s t d p) : t.entry d
    = { s.entry d with suspect := true, pending := s.promotedTake d, next := none } :=
  entry_of_map h.map

/-- The token of a take that has timed out is STALE. -/
theorem TakeTimesOut.token (h : TakeTimesOut s t d p) {k : Token} (hk : p.token = some k) :
    t.token k = .stale d := by
  simp only [State.token, h.link, hk]
  exact State.setToken_token_self s k (.stale d)

/-- The next take of a take that has timed out asks for a token when its placement is due at once. -/
theorem TakeTimesOut.promotes (h : TakeTimesOut s t d p) {n : NextTake} (hn : (s.entry d).next = some n)
    (hl : s.link.state = .up) :
    (t.entry d).pending = some (heldTake n (s.placement (s.entry d).group)) := by
  rw [h.entry, promotedTake_some hn hl]

end

/-- Settles O35: the two rows treat one take as its boundary does. -/
theorem overdueTakesTimeOut : Obligations.OverdueTakesTimeOut := by
  unfold Obligations.OverdueTakesTimeOut
  intro s d p hr ho hp
  refine ⟨fun hph hl => exec_overdueEntry hr ho hp hph hl, fun hph hc => ?_⟩
  intro e v
  have hout := timeOut_timesOut hp hph
  refine ⟨_, exec_takeTimedOut hr hp hph hc, ?_⟩
  generalize s.timeOut d = u at hout
  have hentry := hout.entry
  have hdue := dispatchDue_same u [d]
  have hask : SameBut [.control, .map, .link, .recorder] u (u.dispatchDue [d]).paid :=
    hdue.comp (paid_same _) (by decide) (by decide)
  have hdueEntry : (u.dispatchDue [d]).entry d
      = { e with suspect := true, pending := ((u.dispatchDue [d]).entry d).pending, next := none } := by
    rw [dispatchDue_one_entry, hentry]
  have hwalls : (u.dispatchDue [d]).paid.walls = (s.queueTiles e.tiles).walls :=
    (hask .walls (by decide)).trans hout.walls
  have hrec : (u.dispatchDue [d]).recorder = u.recorder := hdue .recorder (by decide)
  have hnone (h : s.promotedTake d = none) : ((u.dispatchDue [d]).entry d).pending = none := by
    have hpn : (u.entry d).pending = none := by rw [hentry, h]
    rw [dispatchDue_none hpn, hpn]
  obtain ⟨hcontrol, hsalvos⟩ := accounts_eq_iff.1 ((accounts_of_same hdue).trans hout.accounts)
  refine ⟨?_, ?_, hdueEntry, fun hn => hnone (promotedTake_none (.inl hn)),
    fun n _ hl => hnone (promotedTake_none (.inr hl)), fun n hn hl => ?_, fun k hk => ?_, fun c => ?_,
    ?_, ?_, fun w i hi => mem_queue_of_walls hwalls hi, fun hlaw => queued_of_walls hwalls (hlaw.nodup d),
    ?_, hsalvos⟩
  · exact (hout.same.mono (by decide)).trans (hask.mono (by decide))
  · exact (onlyEntry_of_map hout.map).trans (dispatchDue_one_onlyEntry u d)
  · have hplaced := dispatchDue_placed (hout.promotes hn hl)
    rw [since_of_same hout.same, hentry] at hplaced
    intro pl
    split
    · next hnow =>
      rw [if_pos hnow] at hplaced
      exact hplaced.of_same (paid_same _)
    · next hlater =>
      rw [if_neg hlater] at hplaced
      exact hplaced
  · have hstale := hout.token hk
    exact (dispatchDue_one_token_of_not_free (by simp [hstale]) d).trans hstale
  · exact (chan_of_same hdue (c := c)).trans (hout.chan c)
  · exact (congrArg Recorder.queue hrec).trans hout.queue
  · exact (congrArg Recorder.line hrec).trans hout.line
  · change (u.dispatchDue [d]).recorder.high.foldl Control.raise (u.dispatchDue [d]).control = _
    rw [hrec, hout.high, ho, hcontrol]
    rfl

end Sys2Proof.Machine
end

section
/-! Takes of several destinations that end in one event, one destination after the other (R60, R124). -/

namespace Sys2Proof.Machine

/-- Reports of several destinations read no more of the state than those of one. -/
theorem foldl_reportTakes_accounts {l : List Dest} {r : TakeResult} {both : Bool} {s u : State}
    (ha : u.accounts = s.accounts) (hg : u.groups = s.groups) (he : ∀ d ∈ l, u.entry d = s.entry d) :
    (l.foldl (fun v d => v.reportTakes d r both) u).accounts
      = (l.foldl (fun v d => v.reportTakes d r both) s).accounts := by
  induction l generalizing s u with
  | nil => exact ha
  | cons d l ih =>
    have hd := he d List.mem_cons_self
    have hu := reportTakes_same u d r both
    have hs := reportTakes_same s d r both
    refine ih (reportTakes_accounts ha hg (by rw [hd]) (by rw [hd]) (by rw [hd]) r both) ?_ fun c hc => ?_
    · exact (hu .groups (by decide)).trans (hg.trans (hs .groups (by decide)).symm)
    · rw [entry_of_same hu, entry_of_same hs]
      exact he c (List.mem_cons_of_mem d hc)

/-- An action on one destination after the other, each on its own entry, in states that meet `I`, in
which those chosen end their takes. -/
structure EndsEach (f : State → Dest → State) (I : State → Prop) (ends : State → Dest → Bool)
    (r : TakeResult) (both : Bool) : Prop where
  keeps    : ∀ {s} d, I s → I (f s d)
  groups   : ∀ s d, (f s d).groups = s.groups
  other    : ∀ s {c d}, c ≠ d → (f s d).entry c = s.entry c
  chosen   : ∀ s {c d}, c ≠ d → ends (f s d) c = ends s c
  accounts : ∀ s d, I s → (f s d).accounts = (if ends s d then s.reportTakes d r both else s).accounts

section
variable {f : State → Dest → State} {I : State → Prop} {ends : State → Dest → Bool} {r : TakeResult}
  {both : Bool}

theorem EndsEach.foldl_accounts (h : EndsEach f I ends r both) {l : List Dest} (hl : l.Nodup) {s : State}
    (hs : I s) : (l.foldl f s).accounts
      = ((l.filter (ends s)).foldl (fun v d => v.reportTakes d r both) s).accounts := by
  induction l generalizing s with
  | nil => rfl
  | cons d l ih =>
    obtain ⟨hd, hl⟩ := List.nodup_cons.1 hl
    have hne : ∀ c ∈ l, c ≠ d := fun c hc => ne_of_mem_of_not_mem hc hd
    have hends : l.filter (ends (f s d)) = l.filter (ends s) :=
      List.filter_congr fun c hc => h.chosen s (hne c hc)
    have haccounts := h.accounts s d hs
    have hentry : ∀ c ∈ l.filter (ends s), (f s d).entry c = s.entry c := fun c hc =>
      h.other s (hne c (List.mem_of_mem_filter hc))
    rw [List.foldl_cons, ih hl (h.keeps d hs), hends]
    cases he : ends s d with
    | false =>
      rw [List.filter_cons_of_neg (by simp [he])]
      rw [he] at haccounts
      exact foldl_reportTakes_accounts haccounts (h.groups s d) hentry
    | true =>
      have hsame := reportTakes_same s d r both
      rw [List.filter_cons_of_pos he, List.foldl_cons]
      rw [he, if_pos rfl] at haccounts
      exact foldl_reportTakes_accounts haccounts
        ((h.groups s d).trans (hsame .groups (by decide)).symm)
        fun c hc => (hentry c hc).trans (entry_of_same hsame (by decide) c).symm

end

theorem queueTiles_append (s : State) (ps qs : List (WallNo × TileNo)) :
    s.queueTiles (ps ++ qs) = (s.queueTiles ps).queueTiles qs := List.foldl_append

/-- An action on one destination after the other, each on its own entry, in states that meet `I`, in
which those chosen queue their tiles. -/
structure TellsEach (f : State → Dest → State) (I : State → Prop) (tells : State → Dest → Bool) :
    Prop where
  keeps  : ∀ {s} d, I s → I (f s d)
  other  : ∀ s {c d}, c ≠ d → (f s d).entry c = s.entry c
  chosen : ∀ s {c d}, c ≠ d → tells (f s d) c = tells s c
  walls  : ∀ s d, I s → (f s d).walls
    = (if tells s d then s.queueTiles (s.entry d).tiles else s).walls

theorem TellsEach.foldl_walls {f : State → Dest → State} {I : State → Prop}
    {tells : State → Dest → Bool} (h : TellsEach f I tells) {l : List Dest} (hl : l.Nodup) {s : State}
    (hs : I s) : (l.foldl f s).walls
      = (s.queueTiles ((l.filter (tells s)).flatMap fun d => (s.entry d).tiles)).walls := by
  induction l generalizing s with
  | nil => rfl
  | cons d l ih =>
    obtain ⟨hd, hl⟩ := List.nodup_cons.1 hl
    have hne : ∀ c ∈ l, c ≠ d := fun c hc => ne_of_mem_of_not_mem hc hd
    have htells : l.filter (tells (f s d)) = l.filter (tells s) :=
      List.filter_congr fun c hc => h.chosen s (hne c hc)
    have htiles : ((l.filter (tells s)).flatMap fun c => ((f s d).entry c).tiles)
        = (l.filter (tells s)).flatMap fun c => (s.entry c).tiles :=
      List.flatMap_congr fun c hc => by rw [h.other s (hne c (List.mem_of_mem_filter hc))]
    have hwalls := h.walls s d hs
    rw [List.foldl_cons, ih hl (h.keeps d hs), htells, htiles]
    cases ht : tells s d with
    | false =>
      rw [List.filter_cons_of_neg (by simp [ht])]
      rw [ht] at hwalls
      exact queueTiles_walls hwalls _
    | true =>
      rw [List.filter_cons_of_pos ht, List.flatMap_cons, queueTiles_append]
      rw [ht, if_pos rfl] at hwalls
      exact queueTiles_walls hwalls _

end Sys2Proof.Machine
end

section
/-! O36: the carrier comes and goes, and the departure from UP (R62, R66, R69, R72). -/

namespace Sys2Proof.Machine

/-! ### The takes of one destination end CANCELLED (R62) -/

section
variable {s : State}

theorem endNext_none {d : Dest} (h : (s.entry d).next = none) (r : TakeResult) : s.endNext d r = s := by
  rw [State.endNext, h]

/-- The end of a pending take leaves no next take to end. -/
theorem cancelTakes_eq_endPending {d : Dest} {p : Pending}
    (hp : (s.entry d).pending = some p) : s.cancelTakes d = s.endPending d .cancelled :=
  endNext_none (by rw [(endPending_ends hp (by decide)).entry]) _

theorem cancelTakes_eq_endNext {d : Dest} (hp : (s.entry d).pending = none) :
    s.cancelTakes d = s.endNext d .cancelled := by
  rw [State.cancelTakes, State.endPending, hp]

theorem cancelTakes_of_free {d : Dest} (h : (s.entry d).free) : s.cancelTakes d = s := by
  rw [cancelTakes_eq_endNext h.1, endNext_none h.2]

theorem cancelTakes_map (hl : s.link.state ≠ .up) (d : Dest) : (s.cancelTakes d).map
    = (s.setEntry d { s.entry d with pending := none, next := none }).map := by
  cases hp : (s.entry d).pending with
  | none => rw [cancelTakes_eq_endNext hp, endNext_map, ← hp]
  | some p =>
    rw [cancelTakes_eq_endPending hp, (endPending_ends hp (by decide)).map,
      promotedTake_none (.inr hl)]

theorem cancelTakes_accounts (hl : s.link.state ≠ .up) (d : Dest) :
    (s.cancelTakes d).accounts = (s.reportTakes d .cancelled true).accounts := by
  cases hp : (s.entry d).pending with
  | none =>
    rw [cancelTakes_eq_endNext hp]
    unfold State.endNext State.reportTakes
    rw [hp]
    cases (s.entry d).next with
    | none => rfl
    | some n =>
      exact reportTake_accounts (s := s) (u := s.setEntry d _) rfl rfl (by rw [State.setEntry_entry_self])
        _ _ _ _
  | some p =>
    rw [cancelTakes_eq_endPending hp, (endPending_ends hp (by decide)).accounts, bne_iff_ne.2 hl]

theorem cancelTakes_walls (s : State) (d : Dest) : (s.cancelTakes d).walls
    = (if (s.entry d).pending.isSome then s.queueTiles (s.entry d).tiles else s).walls := by
  cases hp : (s.entry d).pending with
  | none => rw [cancelTakes_eq_endNext hp]; exact endNext_same s d _ .walls (by decide)
  | some p => rw [cancelTakes_eq_endPending hp, (endPending_ends hp (by decide)).walls]; rfl

/-- Of the link, the takes that end touch only the waiting list. -/
theorem cancelTakes_link (s : State) (d : Dest) :
    { (s.cancelTakes d).link with waiting := [] } = { s.link with waiting := [] } := by
  cases hp : (s.entry d).pending with
  | none => rw [cancelTakes_eq_endNext hp, link_of_same (endNext_same s d _)]
  | some p => rw [cancelTakes_eq_endPending hp, (endPending_ends hp (by decide)).link]

end

/-! ### Every take of the map -/

theorem cancelTakes_endsEach :
    EndsEach State.cancelTakes (fun s => s.link.state ≠ .up) (fun _ _ => true) .cancelled true where
  keeps d hs := by rwa [cancelTakes_link_state]
  groups s d := cancelTakes_same s d .groups (by decide)
  other s _ _ h := cancelTakes_entry_of_ne s h
  chosen _ _ _ _ := rfl
  accounts s d hs := cancelTakes_accounts hs d

theorem cancelTakes_tellsEach : TellsEach State.cancelTakes (fun s => s.link.state ≠ .up)
    (fun s d => (s.entry d).pending.isSome) where
  keeps d hs := by rwa [cancelTakes_link_state]
  other s _ _ h := cancelTakes_entry_of_ne s h
  chosen s _ _ h := by rw [cancelTakes_entry_of_ne s h]
  walls s d _ := cancelTakes_walls s d

/-- A destination without takes has none to end, so the walk may pass over every destination. -/
theorem cancelAll_eq (s : State) : s.cancelAll = (List.finRange 512).foldl State.cancelTakes s := by
  have hstep (u : State) (d : Dest) : (if (u.entry d).pending.isSome || (u.entry d).next.isSome
      then u.cancelTakes d else u) = u.cancelTakes d := by
    split
    · rfl
    · next h => exact (cancelTakes_of_free (by simpa [Entry.free] using h)).symm
  have hchosen := foldl_chosen (f := State.cancelTakes)
    (chosen := fun u d => (u.entry d).pending.isSome || (u.entry d).next.isSome)
    (fun u _ _ h => by rw [cancelTakes_entry_of_ne u h]) (List.nodup_finRange 512) s
  simp only [hstep] at hchosen
  rw [hchosen, State.cancelAll, select_eq_filter]
  rfl

section
variable {s : State} (hl : s.link.state ≠ .up)
include hl

theorem cancelAll_accounts : s.cancelAll.accounts
    = ((List.finRange 512).foldl (fun v d => v.reportTakes d .cancelled true) s).accounts := by
  rw [cancelAll_eq, cancelTakes_endsEach.foldl_accounts (List.nodup_finRange 512) hl, List.filter_true]

theorem cancelAll_walls : s.cancelAll.walls
    = (s.queueTiles (((List.finRange 512).filter fun d => (s.entry d).pending ≠ none).flatMap
        fun d => (s.entry d).tiles)).walls := by
  rw [cancelAll_eq, cancelTakes_tellsEach.foldl_walls (List.nodup_finRange 512) hl]
  simp only [ne_eq, ← Option.isSome_iff_ne_none, Bool.decide_eq_true]

theorem cancelAll_entry (d : Dest) :
    s.cancelAll.entry d = { s.entry d with pending := none, next := none } := by
  rw [cancelAll_eq]
  exact foldl_own (get := State.entry) (f := State.cancelTakes) (I := fun s => s.link.state ≠ .up)
    (new := fun s d => { s.entry d with pending := none, next := none })
    (fun d hs => by rwa [cancelTakes_link_state]) (fun s d hs => entry_of_map (cancelTakes_map hs d))
    (fun s _ _ h => cancelTakes_entry_of_ne s h)
    (fun s _ _ _ h => by rw [cancelTakes_entry_of_ne s h]) (List.nodup_finRange 512) hl
    (List.mem_finRange d)

/-- What the end of every take leaves of the map's counts and of the link. -/
theorem cancelAll_frame : s.cancelAll.map.dests = s.map.dests ∧ s.cancelAll.map.sources = s.map.sources
    ∧ { s.cancelAll.link with waiting := [] } = { s.link with waiting := [] } := by
  refine (foldl_keeps (f := State.cancelTakes) (I := fun u => u.link.state ≠ .up
    ∧ u.map.dests = s.map.dests ∧ u.map.sources = s.map.sources
    ∧ { u.link with waiting := [] } = { s.link with waiting := [] }) ?_ _ ⟨hl, rfl, rfl, rfl⟩).2
  rintro u d ⟨hul, hd, hs, hlink⟩
  have hmap := cancelTakes_map hul d
  exact ⟨by rwa [cancelTakes_link_state], (congrArg CrosspointMap.dests hmap).trans hd,
    (congrArg CrosspointMap.sources hmap).trans hs, (cancelTakes_link u d).trans hlink⟩

end

/-! ### The carrier -/

/-- The state without carrier, the frames under way abandoned (R66). -/
def State.withoutCarrier (s : State) (τ : Nat) : State :=
  { s with
    now := max s.now τ
    pins := { s.pins with carrier := false }
    link := { s.link with line := none, receiver := .hunting } }

/-- The state with the carrier present. -/
def State.withCarrier (s : State) (τ : Nat) : State :=
  { s with now := max s.now τ, pins := { s.pins with carrier := true } }

section
variable {s : State} (τ : Nat)

theorem exec_carrierGain (hr : s.pins.reset = false) (hc : s.pins.carrier = false)
    (hl : s.link.state = .down) : exec (.carrierGain τ) s
      = .next (s.withCarrier τ).startSurvey.paid := by
  change execCarrierGain τ s = _
  rw [execCarrierGain, hc, if_neg Bool.false_ne_true]
  refine congrArg Host.Outcome.next
    ((event_eq_paid (s := { s with pins := { s.pins with carrier := true } }) hr τ _).trans ?_)
  exact congrArg State.paid (if_pos hl)

theorem exec_carrierLoss (hr : s.pins.reset = false) (hc : s.pins.carrier = true) :
    exec (.carrierLoss τ) s = .next ((s.withoutCarrier τ).linkDown .carrierLost).paid := by
  change execCarrierLoss τ s = _
  rw [execCarrierLoss, hc, if_pos rfl]
  exact congrArg Host.Outcome.next (event_eq_paid (s := { s with
    pins := { s.pins with carrier := false }, link := { s.link with line := none } }) hr τ _)

theorem startSurvey_eq (hl : s.link.state = .down) : s.startSurvey = { s with
    link := Link.begin { s.link with state := .surveying, queue := s.link.queue ++ [.surveyReq] }
    control := s.control.raise
      ⟨.linkState, be8 1 ++ be8 0 ++ be8 0 ++ (be16 s.map.dests ++ be16 s.map.sources)⟩ } := by
  rw [State.startSurvey, hl]
  rfl

theorem leaveSurvey_eq (hl : s.link.state = .surveying) : s.linkDown .carrierLost = { s with
    link := { s.link with state := .down, queue := [] }
    control := s.control.raise
      ⟨.linkState, be8 0 ++ be8 1 ++ be8 1 ++ (be16 s.map.dests ++ be16 s.map.sources)⟩ } := by
  simp only [State.linkDown, hl, State.leaveSurvey, State.setLink]
  rfl

end

/-- The state in which the departure from UP begins to end the takes: the link is DOWN and LINK_STATE has
been raised (R72). -/
def State.downAnnounced (s : State) : State :=
  { s with link := { s.link with state := .down } }.raise
    ⟨.linkState, be8 0 ++ be8 2 ++ be8 1 ++ (be16 s.map.dests ++ be16 s.map.sources)⟩

theorem linkDown_of_up {s : State} (hl : s.link.state = .up) :
    s.linkDown .carrierLost = s.downAnnounced.cancelAll.clearPool := by
  have hset : s.setLink .down .carrierLost = s.downAnnounced := by
    rw [State.setLink, hl]
    rfl
  simp only [State.linkDown, hl, State.departUp, hset]

/-- The departure from UP for the loss of the carrier, in the five steps of R72. -/
theorem departs_from_up (s : State) (τ : Nat) : ∃ t,
    (s.withoutCarrier τ).downAnnounced.cancelAll.clearPool = t
      ∧ SameBut [.now, .control, .pins, .map, .link, .salvos, .walls] s t ∧ t.now = max s.now τ
      ∧ t.accounts = ((List.finRange 512).foldl (fun v d => v.reportTakes d .cancelled true)
          (s.raise ⟨.linkState, be8 0 ++ be8 2 ++ be8 1 ++ (be16 s.map.dests ++ be16 s.map.sources)⟩)).accounts
      ∧ t.pins = { s.pins with carrier := false }
      ∧ t.link = { s.link with
          state := .down, queue := [], line := none, receiver := .hunting,
          pool := Vector.replicate 255 .free, waiting := [] }
      ∧ t.map.dests = s.map.dests ∧ t.map.sources = s.map.sources
      ∧ (∀ d, t.entry d = { s.entry d with pending := none, next := none })
      ∧ TilesOfTakesQueued s t := by
  generalize hu : (s.withoutCarrier τ).downAnnounced = u
  have hl : u.link.state ≠ .up := by rw [← hu]; exact nofun
  have hmap : u.map = s.map := by rw [← hu]; rfl
  have hentry (d : Dest) : u.entry d = s.entry d := by rw [← hu]; rfl
  have hsame : SameBut [.now, .control, .pins, .link] s u := by
    rw [← hu]
    exact ((clock_same s τ).comp (withPins_same _ _) (rs := [.now, .control, .pins, .link]) (by decide)
      (by decide)).trans (((withLink_same _ _).comp (withLink_same _ _) (by decide) (by decide)).comp
        (raise_same _ _) (ps := [.link]) (by decide) (by decide))
  have hlink : { u.link with waiting := [] } = { s.link with
      state := .down, line := none, receiver := .hunting, waiting := [] } := by rw [← hu]; rfl
  obtain ⟨hdests, hsources, hwaiting⟩ := cancelAll_frame hl
  have hcancel := cancelAll_same u
  have hwalls := (cancelAll_walls hl).trans (queueTiles_walls (hsame .walls (by decide)) _)
  simp only [hentry] at hwalls
  refine ⟨_, rfl, ?_, ?_, ?_, ?_, ?_, ?_, ?_, fun d => ?_, fun d hd w i hi => ?_, fun hlaw => ?_⟩
  · exact ((hsame.mono (by decide)).trans (hcancel.mono (by decide))).trans
      ((withLink_same _ _).mono (by decide))
  · exact (hcancel .now (by decide)).trans (by rw [← hu]; rfl)
  · refine (cancelAll_accounts hl).trans (foldl_reportTakes_accounts ?_ (hsame .groups (by decide))
      fun d _ => hentry d)
    rw [← hu]
    rfl
  · exact (hcancel .pins (by decide)).trans (by rw [← hu]; rfl)
  · change { u.cancelAll.link with pool := Vector.replicate 255 .free, waiting := [], queue := [] } = _
    exact congrArg (fun l : Link => { l with pool := Vector.replicate 255 .free, queue := [] })
      (hwaiting.trans hlink)
  · exact hdests.trans (congrArg CrosspointMap.dests hmap)
  · exact hsources.trans (congrArg CrosspointMap.sources hmap)
  · exact (cancelAll_entry hl d).trans (by rw [hentry])
  · exact mem_queue_of_walls hwalls (List.mem_flatMap.2 ⟨d, by simpa using hd, hi⟩)
  · exact queued_of_walls hwalls (hlaw.nodup_flatMap ((List.nodup_finRange 512).filter _))

/-- Settles O36: a survey starts, a survey is left, or every take ends with the departure from UP. -/
theorem carrierMovesTheLink : Obligations.CarrierMovesTheLink := by
  unfold Obligations.CarrierMovesTheLink
  intro τ s hr ho counts now lost
  refine ⟨fun hc hl => ?_, fun hc hl => ?_, fun hc hl => ?_⟩
  · rw [exec_carrierGain τ hr hc hl, startSurvey_eq (s := s.withCarrier τ) hl]
    exact congrArg Host.Outcome.next (paid_of_owed ho)
  · rw [exec_carrierLoss τ hr hc, leaveSurvey_eq (s := s.withoutCarrier τ) hl]
    exact congrArg Host.Outcome.next (paid_of_owed ho)
  · obtain ⟨t, ht, hsame, hnow, haccounts, hrest⟩ := departs_from_up s τ
    obtain ⟨hcontrol, hsalvos⟩ := accounts_eq_iff.1 haccounts
    have howed : t.recorder.high = [] := (congrArg Recorder.high (hsame .recorder (by decide))).trans ho
    refine ⟨t, ?_, hsame, hnow, hcontrol, hsalvos, hrest⟩
    rw [exec_carrierLoss τ hr hc, linkDown_of_up (s := s.withoutCarrier τ) hl, ht, paid_of_owed howed]

end Sys2Proof.Machine
end

section
/-! O34: what a boundary makes of one take (R50, R52 to R55). -/

namespace Sys2Proof.Machine

/-- An OVERDUE take in the last frame of its countdown (R55). -/
def Pending.expires (p : Pending) : Bool := p.phase = .overdue ∧ p.overdue.getD 0 ≤ 1

/-- The pending take of a destination times out at the next boundary of its group. -/
def State.expires (s : State) (d : Dest) : Bool := (s.entry d).pending.any Pending.expires

/-- A take that a boundary leaves pending, treated by its phase; `c` is the overdue countdown C. -/
def Pending.treated (p : Pending) (b : Boundary) (c : Nat) : Pending :=
  match p.phase with
  | .held => if p.countdown = 0 then { p with landing := p.landing - 1 } else p.heldOn b
  | .waiting => { p with landing := p.landing - 1 }
  | .sent => if p.landing = 0 then p.enterOverdue c else { p with landing := p.landing - 1 }
  | .overdue => { p with overdue := some (p.overdue.getD 0 - 1) }

/-- The entry of a destination once the boundary `b` has treated its take. -/
def State.treatedEntry (s : State) (b : Boundary) (d : Dest) : Entry :=
  match (s.entry d).pending with
  | none => s.entry d
  | some p =>
    if p.expires then { s.entry d with suspect := true, pending := s.promotedTake d, next := none }
    else { s.entry d with pending := some (p.treated b s.sched.timeout) }

section
variable {s : State} {b : Boundary} {d : Dest} {p : Pending}

theorem expires_iff : p.expires = true ↔ p.phase = .overdue ∧ p.overdue.getD 0 ≤ 1 := by
  simp [Pending.expires]

theorem expires_of_pending (hp : (s.entry d).pending = some p) : s.expires d = p.expires := by
  simp [State.expires, hp]

theorem treatTake_none (hp : (s.entry d).pending = none) : s.treatTake b d = s := by
  rw [State.treatTake, hp]

theorem treatTake_expires (hp : (s.entry d).pending = some p) (he : p.expires = true) :
    s.treatTake b d = s.timeOut d := by
  obtain ⟨hph, ho⟩ := expires_iff.1 he
  simp only [State.treatTake, hp, hph, ho, if_true]

theorem treatTake_stays (hp : (s.entry d).pending = some p) (he : p.expires = false) :
    s.treatTake b d = s.setPending d (p.treated b s.sched.timeout) := by
  simp only [State.treatTake, hp, Pending.treated]
  cases hph : p.phase with
  | held => dsimp only; split <;> rfl
  | waiting => rfl
  | sent => dsimp only; split <;> rfl
  | overdue =>
    have ho : ¬ p.overdue.getD 0 ≤ 1 := fun ho => by simp [Pending.expires, hph, ho] at he
    exact if_neg ho

/-- All that a boundary does to a destination: its take times out, or only its entry is written. -/
theorem treatTake_cases (s : State) (b : Boundary) (d : Dest) :
    (∃ p, (s.entry d).pending = some p ∧ s.expires d = true ∧ TakeTimesOut s (s.treatTake b d) d p)
      ∨ s.expires d = false ∧ SameBut [.map] s (s.treatTake b d) := by
  cases hp : (s.entry d).pending with
  | none =>
    refine .inr ⟨by simp [State.expires, hp], ?_⟩
    rw [treatTake_none hp]
    exact .refl _ _
  | some p =>
    rw [expires_of_pending hp]
    cases he : p.expires with
    | false =>
      rw [treatTake_stays hp he]
      exact .inr ⟨rfl, setPending_same s d _⟩
    | true =>
      rw [treatTake_expires hp he]
      exact .inl ⟨p, rfl, rfl, timeOut_timesOut hp (expires_iff.1 he).1⟩

theorem treatTake_map (s : State) (b : Boundary) (d : Dest) :
    (s.treatTake b d).map = (s.setEntry d (s.treatedEntry b d)).map := by
  cases hp : (s.entry d).pending with
  | none =>
    rw [treatTake_none hp, State.treatedEntry, hp]
    exact (congrArg State.map (setEntry_self s d)).symm
  | some p =>
    cases he : p.expires with
    | false =>
      rw [treatTake_stays hp he]
      simp only [State.treatedEntry, hp, he]
      rfl
    | true =>
      rw [treatTake_expires hp he]
      simp only [State.treatedEntry, hp, he]
      exact (timeOut_timesOut hp (expires_iff.1 he).1).map

theorem treatTake_entry_self (s : State) (b : Boundary) (d : Dest) :
    (s.treatTake b d).entry d = s.treatedEntry b d := entry_of_map (treatTake_map s b d)

/-! ### What the treating of one destination leaves -/

theorem treatTake_link (s : State) (b : Boundary) (d : Dest) :
    (s.treatTake b d).link = { s.link with pool := (s.treatTake b d).link.pool } := by
  obtain ⟨p, -, -, h⟩ | ⟨-, h⟩ := treatTake_cases s b d
  · rw [h.link]
    cases p.token <;> rfl
  · rw [link_of_same h]

theorem treatTake_link_state (s : State) (b : Boundary) (d : Dest) :
    (s.treatTake b d).link.state = s.link.state := by rw [treatTake_link]

theorem treatTake_expires_of_ne (s : State) (b : Boundary) {c d : Dest} (h : c ≠ d) :
    (s.treatTake b d).expires c = s.expires c := by
  rw [State.expires, State.expires, treatTake_entry_of_ne b s h]

theorem treatTake_treatedEntry_of_ne (s : State) (b : Boundary) {c d : Dest} (h : c ≠ d) :
    (s.treatTake b d).treatedEntry b c = s.treatedEntry b c := by
  have hsame := treatTake_same b s d
  have hentry := treatTake_entry_of_ne b s h
  have hsched : (s.treatTake b d).sched = s.sched := hsame .sched (by decide)
  have hpromoted : (s.treatTake b d).promotedTake c = s.promotedTake c :=
    promotedTake_congr (treatTake_link_state s b d) (by rw [hentry]) (by rw [hentry])
      (placement_of_same hsame ..)
  simp only [State.treatedEntry, hentry, hsched, hpromoted]

/-- A mark leaves a channel's state and binding. -/
theorem treatTake_chan (s : State) (b : Boundary) (d : Dest) (c : ChannelNo) :
    (s.treatTake b d).chan c
      = if s.expires d ∧ c ∈ s.recordersOf d then s.suspectChannel d c else s.chan c := by
  obtain ⟨p, -, he, h⟩ | ⟨he, h⟩ := treatTake_cases s b d
  · rw [h.chan]
    simp [he]
  · rw [chan_of_same h]
    simp [he]

theorem treatTake_recordersOf (s : State) (b : Boundary) (d e : Dest) :
    (s.treatTake b d).recordersOf e = s.recordersOf e := by
  refine recordersOf_congr (fun c => ?_) e
  rw [treatTake_chan]
  split
  · exact ⟨Channel.log_state _ _, Channel.log_bound _ _⟩
  · exact ⟨rfl, rfl⟩

/-- A channel that records one destination is not touched by the end of another's take. -/
theorem treatTake_chan_of_ne (s : State) (b : Boundary) {d e : Dest} (h : e ≠ d) {c : ChannelNo}
    (hc : c ∈ s.recordersOf e) : (s.treatTake b d).chan c = s.chan c := by
  rw [treatTake_chan, if_neg]
  rintro ⟨-, hd⟩
  exact h (Option.some.inj ((mem_recordersOf.1 hc).2.symm.trans (mem_recordersOf.1 hd).2))

theorem treatTake_suspectChannel_of_ne (s : State) (b : Boundary) {d e : Dest} (h : e ≠ d)
    {c : ChannelNo} (hc : c ∈ s.recordersOf e) :
    (s.treatTake b d).suspectChannel e c = s.suspectChannel e c := by
  simp only [State.suspectChannel, treatTake_entry_of_ne b s h, treatTake_chan_of_ne s b h hc,
    stamp_of_same (treatTake_same b s d)]

theorem treatTake_marksHigh_of_ne (s : State) (b : Boundary) {d e : Dest} (h : e ≠ d) :
    (s.treatTake b d).marksHigh ((s.treatTake b d).recordersOf e) = s.marksHigh (s.recordersOf e) := by
  rw [treatTake_recordersOf]
  exact marksHigh_congr fun c hc => treatTake_chan_of_ne s b h hc

theorem treatTake_high (s : State) (b : Boundary) (d : Dest) : (s.treatTake b d).recorder.high
    = s.recorder.high ++ if s.expires d then s.marksHigh (s.recordersOf d) else [] := by
  obtain ⟨p, -, he, h⟩ | ⟨he, h⟩ := treatTake_cases s b d
  · rw [h.high, he]
    rfl
  · rw [show (s.treatTake b d).recorder = s.recorder from h .recorder (by decide), he]
    exact (List.append_nil _).symm

theorem treatTake_line (s : State) (b : Boundary) (d : Dest) :
    (s.treatTake b d).recorder.queue = s.recorder.queue
      ∧ (s.treatTake b d).recorder.line = s.recorder.line := by
  obtain ⟨p, -, -, h⟩ | ⟨-, h⟩ := treatTake_cases s b d
  · exact ⟨h.queue, h.line⟩
  · rw [show (s.treatTake b d).recorder = s.recorder from h .recorder (by decide)]
    exact ⟨rfl, rfl⟩

theorem makeStale_token (s : State) (d : Dest) (j : Option Token) (k : Token) :
    (s.makeStale d j).token k = if j == some k then .stale d else s.token k := by
  cases j with
  | none => rfl
  | some j =>
    rw [State.makeStale, State.setToken_token]
    exact ite_congr (by rw [beq_iff_eq, Option.some_inj, eq_comm (a := j)]) (fun _ => rfl) fun _ => rfl

/-- The take of `d` times out and takes the token `k` with it. -/
def State.losesToken (s : State) (k : Token) (d : Dest) : Bool :=
  (s.entry d).pending.any fun p => p.expires && p.token == some k

theorem treatTake_token (s : State) (b : Boundary) (d : Dest) (k : Token) :
    (s.treatTake b d).token k = if s.losesToken k d then .stale d else s.token k := by
  obtain ⟨p, hp, he, h⟩ | ⟨he, h⟩ := treatTake_cases s b d
  · rw [expires_of_pending hp] at he
    have htoken : (s.treatTake b d).token k = (s.makeStale d p.token).token k := by
      rw [State.token, State.token, h.link]
    rw [htoken, makeStale_token]
    simp only [State.losesToken, hp, Option.any_some, he, Bool.true_and]
  · have hlose : s.losesToken k d = false := by
      cases hp : (s.entry d).pending with
      | none => simp [State.losesToken, hp]
      | some p =>
        rw [expires_of_pending hp] at he
        simp [State.losesToken, hp, he]
    simp only [hlose, State.token, link_of_same h]
    rfl

end

end Sys2Proof.Machine
end

section
/-! O34: the takes of a boundary, treated one after the other. -/

namespace Sys2Proof.Machine

/-! ### Which destinations (R29) -/

theorem mem_takesOf {s : State} {g : Group} {d : Dest} : d ∈ s.takesOf g ↔
    (s.entry d).group = g ∧ (s.entry d).pending ≠ none := by
  rw [State.takesOf, mem_select]
  change ((s.entry d).group == g && (s.entry d).pending.isSome) = true ↔ _
  simp [Option.isSome_iff_ne_none]

theorem takesOf_nodup (s : State) (g : Group) : (s.takesOf g).Nodup := select_nodup _ _

/-- The destinations of a group whose takes time out at its boundary, ascending. -/
def State.endedAt (s : State) (g : Group) : List Dest := (s.takesOf g).filter s.expires

theorem endedAt_eq (s : State) (g : Group) : s.endedAt g = (List.finRange 512).filter fun d =>
    (s.entry d).group = g ∧ (s.entry d).pending.any fun p => p.phase = .overdue ∧ p.overdue.getD 0 ≤ 1 := by
  rw [State.endedAt, State.takesOf, select_eq_filter, List.filter_filter]
  refine List.filter_congr fun d _ => ?_
  change (s.expires d && ((s.entry d).group == g && (s.entry d).pending.isSome)) = _
  unfold State.expires Pending.expires
  cases (s.entry d).pending <;> simp [beq_eq_decide, Bool.and_comm]

/-- One record only changes a value, among several that are passed over in turn. -/
theorem foldl_only {ι α : Type} {P : ι → Prop} [DecidablePred P] {f : ι → α} {i : ι} {l : List ι}
    (hi : i ∈ l) (hP : P i) (h : ∀ j ∈ l, P j → j = i) (a : α) :
    l.foldl (fun a j => if P j then f j else a) a = f i := by
  induction l generalizing a with
  | nil => cases hi
  | cons j l ih =>
    by_cases hil : i ∈ l
    · exact ih hil (fun k hk => h k (List.mem_cons_of_mem j hk)) _
    · obtain rfl : i = j := (List.mem_cons.1 hi).resolve_right hil
      have hnone : ∀ k ∈ l, ¬ P k := fun k hk hk' => hil (h k (List.mem_cons_of_mem i hk) hk' ▸ hk)
      rw [List.foldl_cons, if_pos hP]
      clear ih h hi hil
      induction l with
      | nil => rfl
      | cons k l ih =>
        rw [List.foldl_cons, if_neg (hnone k List.mem_cons_self)]
        exact ih fun m hm => hnone m (List.mem_cons_of_mem k hm)

theorem foldl_no {ι α : Type} {P : ι → Prop} [DecidablePred P] {f : ι → α} {l : List ι}
    (h : ∀ j ∈ l, ¬ P j) (a : α) : l.foldl (fun a j => if P j then f j else a) a = a := by
  induction l with
  | nil => rfl
  | cons k l ih =>
    rw [List.foldl_cons, if_neg (h k List.mem_cons_self)]
    exact ih fun m hm => h m (List.mem_cons_of_mem k hm)

/-! ### Every take treated once -/

/-- Every take of the group has been treated (R50 to R55); none has asked for a token yet. -/
def State.takesTreated (s : State) (b : Boundary) : State :=
  (s.takesOf b.group).foldl (State.treatTake b) s

section
variable (s : State) (b : Boundary)

theorem takesTreated_same :
    SameBut [.control, .map, .walls, .salvos, .link, .recorder] s (s.takesTreated b) :=
  SameBut.foldl (treatTake_same b) _ s

theorem takesTreated_counts : (s.takesTreated b).map.dests = s.map.dests
    ∧ (s.takesTreated b).map.sources = s.map.sources := by
  refine foldl_keeps (f := State.treatTake b) (I := fun u => u.map.dests = s.map.dests
    ∧ u.map.sources = s.map.sources) (fun {u} d hu => ?_) _ ⟨rfl, rfl⟩
  rw [treatTake_map]
  exact hu

theorem takesTreated_line : (s.takesTreated b).recorder.queue = s.recorder.queue
    ∧ (s.takesTreated b).recorder.line = s.recorder.line := by
  refine foldl_keeps (f := State.treatTake b) (I := fun u => u.recorder.queue = s.recorder.queue
    ∧ u.recorder.line = s.recorder.line) (fun {u} d hu => ?_) _ ⟨rfl, rfl⟩
  obtain ⟨hq, hl⟩ := treatTake_line u b d
  exact ⟨hq.trans hu.1, hl.trans hu.2⟩

theorem takesTreated_entry {d : Dest} (hd : d ∈ s.takesOf b.group) :
    (s.takesTreated b).entry d = s.treatedEntry b d :=
  foldl_own (get := State.entry) (I := fun _ => True) (new := fun s d => s.treatedEntry b d)
    (fun _ _ => trivial) (fun s d _ => treatTake_entry_self s b d)
    (fun s _ _ h => treatTake_entry_of_ne b s h) (fun s _ _ _ h => treatTake_treatedEntry_of_ne s b h)
    (takesOf_nodup s _) trivial hd

theorem takesTreated_entry_of_not_mem {d : Dest} (hd : d ∉ s.takesOf b.group) :
    (s.takesTreated b).entry d = s.entry d :=
  foldl_untouched State.entry _ (fun s _ _ h => treatTake_entry_of_ne b s h) _ s d hd

theorem treatTake_endsEach (v : LinkState) : EndsEach (State.treatTake b) (fun s => s.link.state = v)
    State.expires .timedOut (v != .up) where
  keeps d hs := by rwa [treatTake_link_state]
  groups s d := treatTake_same b s d .groups (by decide)
  other s _ _ h := treatTake_entry_of_ne b s h
  chosen s _ _ h := treatTake_expires_of_ne s b h
  accounts s d hs := by
    obtain ⟨p, -, he, h⟩ | ⟨he, h⟩ := treatTake_cases s b d
    · rw [he, if_pos rfl, h.accounts, hs]
    · rw [he]
      exact accounts_of_same h

theorem treatTake_tellsEach : TellsEach (State.treatTake b) (fun _ => True) State.expires where
  keeps _ _ := trivial
  other s _ _ h := treatTake_entry_of_ne b s h
  chosen s _ _ h := treatTake_expires_of_ne s b h
  walls s d _ := by
    obtain ⟨p, -, he, h⟩ | ⟨he, h⟩ := treatTake_cases s b d
    · rw [he, if_pos rfl, h.walls]
    · rw [he]
      exact h .walls (by decide)

theorem takesTreated_accounts : (s.takesTreated b).accounts = ((s.endedAt b.group).foldl
    (fun v d => v.reportTakes d .timedOut (s.link.state != .up)) s).accounts :=
  (treatTake_endsEach b s.link.state).foldl_accounts (takesOf_nodup s _) rfl

theorem takesTreated_walls : (s.takesTreated b).walls
    = (s.queueTiles ((s.endedAt b.group).flatMap fun d => (s.entry d).tiles)).walls :=
  (treatTake_tellsEach b).foldl_walls (takesOf_nodup s _) trivial

theorem marksHigh_append (s : State) (l m : List ChannelNo) :
    s.marksHigh (l ++ m) = s.marksHigh l ++ s.marksHigh m := by
  simp only [State.marksHigh, List.filter_append, List.map_append]

theorem takesTreated_high : (s.takesTreated b).recorder.high
    = s.recorder.high ++ s.marksHigh ((s.endedAt b.group).flatMap s.recordersOf) := by
  have hfold := foldl_part (f := State.treatTake b) (I := fun _ => True)
    (part := fun s => s.recorder.high)
    (act := fun s d a => a ++ if s.expires d then s.marksHigh (s.recordersOf d) else [])
    (fun _ _ => trivial) (fun s d _ => treatTake_high s b d)
    (fun s d e _ h => by rw [treatTake_expires_of_ne s b h, treatTake_marksHigh_of_ne s b h])
    (takesOf_nodup s b.group) (s := s) trivial
  refine hfold.trans ?_
  rw [State.endedAt]
  generalize s.takesOf b.group = l
  generalize s.recorder.high = a
  induction l generalizing a with
  | nil => exact (List.append_nil a).symm
  | cons d l ih =>
    rw [List.foldl_cons, ih]
    cases he : s.expires d <;> simp [he, marksHigh_append]

theorem takesTreated_chan (c : ChannelNo) : (s.takesTreated b).chan c =
    match (s.chan c).bound with
    | some d => if c ∈ s.recordersOf d ∧ d ∈ s.endedAt b.group then s.suspectChannel d c else s.chan c
    | none => s.chan c := by
  have hfold : (s.takesTreated b).chan c = _ := foldl_part (f := State.treatTake b) (I := fun _ => True)
    (part := fun s => s.chan c)
    (act := fun s d a => if s.expires d ∧ c ∈ s.recordersOf d then s.suspectChannel d c else a)
    (fun _ _ => trivial) (fun s d _ => treatTake_chan s b d c)
    (fun s d e _ h => funext fun a => by
      rw [treatTake_expires_of_ne s b h, treatTake_recordersOf]
      refine ite_congr rfl (fun hc => ?_) fun _ => rfl
      exact treatTake_suspectChannel_of_ne s b h hc.2)
    (takesOf_nodup s b.group) (s := s) trivial
  have hbound {d e : Dest} (hb : (s.chan c).bound = some d) (he : c ∈ s.recordersOf e) : e = d :=
    Option.some.inj ((mem_recordersOf.1 he).2.symm.trans hb)
  rw [hfold]
  cases hb : (s.chan c).bound with
  | none =>
    exact foldl_no (fun d _ hd => by simpa [hb] using (mem_recordersOf.1 hd.2).2) _
  | some d =>
    dsimp only
    split
    · next h =>
      obtain ⟨hc, hd⟩ := h
      obtain ⟨hd, he⟩ := List.mem_filter.1 hd
      exact foldl_only hd ⟨he, hc⟩ (fun e _ h => hbound hb h.2) _
    · next h =>
      refine foldl_no (fun e he hP => h ?_) _
      obtain rfl := hbound hb hP.2
      exact ⟨hP.2, List.mem_filter.2 ⟨he, hP.1⟩⟩

theorem takesTreated_token (k : Token) : (s.takesTreated b).token k
    = (s.takesOf b.group).foldl (fun a d => if s.losesToken k d then .stale d else a) (s.token k) :=
  foldl_part (f := State.treatTake b) (I := fun _ => True) (part := fun s => s.token k)
    (act := fun s d a => if s.losesToken k d then .stale d else a) (fun _ _ => trivial)
    (fun s d _ => treatTake_token s b d k)
    (fun s d e _ h => by
      rw [State.losesToken, State.losesToken, treatTake_entry_of_ne b s h])
    (takesOf_nodup s b.group) trivial

end

/-- The token of a take that times out is STALE, as no other take holds it. -/
theorem takesTreated_stale {s : State} (hs : TokenLaw s) {b : Boundary} {d : Dest} {p : Pending}
    (hd : d ∈ s.takesOf b.group) (hp : (s.entry d).pending = some p) (he : p.expires = true) {k : Token}
    (hk : p.token = some k) : (s.takesTreated b).token k = .stale d := by
  rw [takesTreated_token]
  refine foldl_only hd (by simp [State.losesToken, hp, he, hk]) (fun c _ hc => ?_) _
  obtain ⟨q, hq, hqk⟩ := (Option.any_eq_true ..).1 hc
  simp only [Bool.and_eq_true, beq_iff_eq] at hqk
  exact hs.alone c d q p k hq hp hqk.2 hk

/-! ### Those due ask (R50, R51, R76) -/

/-- The takes that ask the pool once all have been treated: those dispatched by R50, and those due. -/
def State.askingAt (s : State) (b : Boundary) : List Dest :=
  ((s.takesTreated b).takesOf b.group).filter fun d =>
    (((s.takesOf b.group).filter fun d => (s.entry d).shortFrame).contains d
      || (s.takesTreated b).isDue d)

section
variable {s : State} {b : Boundary} {d : Dest}

theorem takesAtBoundary_eq (s : State) (b : Boundary) :
    s.takesAtBoundary b = (s.askingAt b).foldl State.requestToken (s.takesTreated b) :=
  foldl_chosen (f := State.requestToken) (chosen := fun u d =>
    ((s.takesOf b.group).filter fun d => (s.entry d).shortFrame).contains d || u.isDue d)
    (fun u _ _ h => by rw [requestToken_isDue_of_ne u h]) (takesOf_nodup _ _) _

theorem askingAt_nodup (s : State) (b : Boundary) : (s.askingAt b).Nodup := (takesOf_nodup _ _).filter _

theorem mem_askingAt (hd : d ∈ s.takesOf b.group) {q : Pending}
    (hq : ((s.takesTreated b).entry d).pending = some q)
    (hg : ((s.takesTreated b).entry d).group = b.group) :
    d ∈ s.askingAt b ↔ (s.entry d).shortFrame = true
      ∨ q.phase = .held ∧ q.countdown = 0 ∧ q.offset ≤ s.since b.group := by
  have hm : d ∈ (s.takesTreated b).takesOf b.group := mem_takesOf.2 ⟨hg, by simp [hq]⟩
  have hsince : (s.takesTreated b).since b.group = s.since b.group :=
    since_of_same (takesTreated_same s b) (g := b.group)
  simp only [State.askingAt, List.mem_filter, hm, true_and, Bool.or_eq_true, List.contains_iff_mem, hd,
    isDue_eq_any, hq, Option.any_some, hg, hsince, decide_eq_true_eq]

theorem askingAt_pending (h : d ∈ s.askingAt b) : ((s.takesTreated b).entry d).group = b.group
    ∧ ((s.takesTreated b).entry d).pending ≠ none := mem_takesOf.1 (List.mem_filter.1 h).1

theorem takesAtBoundary_shared (s : State) (b : Boundary) :
    TokensShared (s.askingAt b) (s.takesTreated b) (s.takesAtBoundary b) := by
  rw [takesAtBoundary_eq]
  exact foldl_requestToken_shared (askingAt_nodup s b) fun d hd => (askingAt_pending hd).2

theorem takesAtBoundary_entry_of_not_asking (h : d ∉ s.askingAt b) :
    (s.takesAtBoundary b).entry d = (s.takesTreated b).entry d := by
  rw [takesAtBoundary_eq]
  exact foldl_untouched State.entry _ (fun s _ _ h => requestToken_entry_of_ne s h) _ _ d h

theorem takesAtBoundary_asked (h : d ∈ s.askingAt b) {q : Pending}
    (hq : ((s.takesTreated b).entry d).pending = some q) : Asked (s.takesAtBoundary b) d q := by
  rw [takesAtBoundary_eq]
  exact foldl_requestToken_asked (askingAt_nodup s b) h hq

/-- What the asking leaves of an entry. -/
theorem takesAtBoundary_entry_frame (s : State) (b : Boundary) (d : Dest) :
    (s.takesAtBoundary b).entry d = { (s.takesTreated b).entry d with
      pending := ((s.takesAtBoundary b).entry d).pending } := by
  rw [(takesAtBoundary_shared s b).entry]

theorem asking_same (s : State) (b : Boundary) :
    SameBut [.map, .link] (s.takesTreated b) (s.takesAtBoundary b) := by
  rw [takesAtBoundary_eq]
  exact foldl_requestToken_same _ _

end

end Sys2Proof.Machine
end

section
/-! O34: what becomes of each take at a boundary of its group. -/

namespace Sys2Proof.Machine

section
variable {s : State} {b : Boundary} {d : Dest} {p : Pending}

/-- A destination of another group, or without a pending take, is not touched. -/
theorem takesAtBoundary_untouched (h : (s.entry d).group ≠ b.group ∨ (s.entry d).pending = none) :
    (s.takesAtBoundary b).entry d = s.entry d := by
  have hnot : d ∉ s.takesOf b.group := fun hd => by
    obtain ⟨hg, hp⟩ := mem_takesOf.1 hd
    exact h.elim (· hg) hp
  have hentry := takesTreated_entry_of_not_mem s b hnot
  have hask : d ∉ s.askingAt b := fun hd => by
    have hboth := askingAt_pending hd
    rw [hentry] at hboth
    exact hnot (mem_takesOf.2 hboth)
  rw [takesAtBoundary_entry_of_not_asking hask, hentry]

theorem shortFrame_iff (hp : (s.entry d).pending = some p) :
    (s.entry d).shortFrame = true ↔ p.phase = .held ∧ p.countdown = 0 := by
  simp [Entry.shortFrame, hp]

/-! ### A take that stays -/

theorem takesTreated_stays (hd : d ∈ s.takesOf b.group) (hp : (s.entry d).pending = some p)
    (he : p.expires = false) : (s.takesTreated b).entry d
      = { s.entry d with pending := some (p.treated b s.sched.timeout) } := by
  rw [takesTreated_entry s b hd, State.treatedEntry, hp]
  simp only [he]
  rfl

theorem takesAtBoundary_stays (hd : d ∈ s.takesOf b.group) (hp : (s.entry d).pending = some p)
    (he : p.expires = false) : (s.takesAtBoundary b).entry d
      = { s.entry d with pending := ((s.takesAtBoundary b).entry d).pending } := by
  have hframe := takesAtBoundary_entry_frame s b d
  rwa [takesTreated_stays hd hp he] at hframe

theorem mem_askingAt_stays (hd : d ∈ s.takesOf b.group) (hp : (s.entry d).pending = some p)
    (he : p.expires = false) {q : Pending} (hq : p.treated b s.sched.timeout = q) :
    d ∈ s.askingAt b ↔ (p.phase = .held ∧ p.countdown = 0)
      ∨ q.phase = .held ∧ q.countdown = 0 ∧ q.offset ≤ s.since b.group := by
  have hentry := takesTreated_stays hd hp he
  rw [mem_askingAt hd (q := q) (by rw [hentry, hq]) (by rw [hentry]; exact (mem_takesOf.1 hd).1),
    shortFrame_iff hp]

/-- A take that stays asks the pool, or is pending as it was treated. -/
theorem takesAtBoundary_asks (hd : d ∈ s.takesOf b.group) (hp : (s.entry d).pending = some p)
    (he : p.expires = false) {q : Pending} (hq : p.treated b s.sched.timeout = q)
    (hask : d ∈ s.askingAt b) : Asked (s.takesAtBoundary b) d q :=
  takesAtBoundary_asked hask (by rw [takesTreated_stays hd hp he, hq])

theorem takesAtBoundary_keeps (hd : d ∈ s.takesOf b.group) (hp : (s.entry d).pending = some p)
    (he : p.expires = false) {q : Pending} (hq : p.treated b s.sched.timeout = q)
    (hask : d ∉ s.askingAt b) : ((s.takesAtBoundary b).entry d).pending = some q := by
  rw [takesAtBoundary_entry_of_not_asking hask, takesTreated_stays hd hp he, hq]

/-- A take that is not HELD, and does not enter HELD, does not ask. -/
theorem takesAtBoundary_notHeld (hd : d ∈ s.takesOf b.group) (hp : (s.entry d).pending = some p)
    (he : p.expires = false) (hph : p.phase ≠ .held) {q : Pending}
    (hq : p.treated b s.sched.timeout = q) (hqph : q.phase ≠ .held) :
    ((s.takesAtBoundary b).entry d).pending = some q := by
  refine takesAtBoundary_keeps hd hp he hq fun hask => ?_
  rcases (mem_askingAt_stays hd hp he hq).1 hask with ⟨h, -⟩ | ⟨h, -⟩
  exacts [hph h, hqph h]

/-- A HELD take that is not dispatched by R50 asks when it is due at the boundary's instant (R51). -/
theorem takesAtBoundary_heldOn (hd : d ∈ s.takesOf b.group) (hp : (s.entry d).pending = some p)
    (hph : p.phase = .held) (hc : p.countdown ≠ 0) :
    if p.countdown = 1 ∧ (p.heldOn b).offset ≤ s.since b.group then
      Asked (s.takesAtBoundary b) d (p.heldOn b)
    else ((s.takesAtBoundary b).entry d).pending = some (p.heldOn b) := by
  have he : p.expires = false := by simp [Pending.expires, hph]
  have hq : p.treated b s.sched.timeout = p.heldOn b := by simp [Pending.treated, hph, hc]
  have hask : d ∈ s.askingAt b ↔ p.countdown = 1 ∧ (p.heldOn b).offset ≤ s.since b.group := by
    have hone : p.countdown - 1 = 0 ↔ p.countdown = 1 := by omega
    rw [mem_askingAt_stays hd hp he hq, ← hone]
    exact ⟨fun h => h.elim (fun h => absurd h.2 hc) (·.2), fun h => .inr ⟨hph, h⟩⟩
  split
  · exact takesAtBoundary_asks hd hp he hq (hask.2 ‹_›)
  · exact takesAtBoundary_keeps hd hp he hq (mt hask.1 ‹_›)

/-! ### A take that times out -/

theorem takesTreated_expires (hd : d ∈ s.takesOf b.group) (hp : (s.entry d).pending = some p)
    (he : p.expires = true) : (s.takesTreated b).entry d
      = { s.entry d with suspect := true, pending := s.promotedTake d, next := none } := by
  rw [takesTreated_entry s b hd, State.treatedEntry, hp]
  simp only [he]
  rfl

theorem takesAtBoundary_expires (hd : d ∈ s.takesOf b.group) (hp : (s.entry d).pending = some p)
    (he : p.expires = true) : (s.takesAtBoundary b).entry d = { s.entry d with
      suspect := true, pending := ((s.takesAtBoundary b).entry d).pending, next := none } := by
  have hframe := takesAtBoundary_entry_frame s b d
  rwa [takesTreated_expires hd hp he] at hframe

theorem takesAtBoundary_noPromotion (hd : d ∈ s.takesOf b.group) (hp : (s.entry d).pending = some p)
    (he : p.expires = true) (h : (s.entry d).next = none ∨ s.link.state ≠ .up) :
    ((s.takesAtBoundary b).entry d).pending = none := by
  have hnone : ((s.takesTreated b).entry d).pending = none := by
    rw [takesTreated_expires hd hp he]
    exact promotedTake_none h
  rw [takesAtBoundary_entry_of_not_asking fun hask => (askingAt_pending hask).2 hnone, hnone]

/-- The promoted take is placed at the boundary, and asks when it is due there (R61, R49). -/
theorem takesAtBoundary_promotes (hd : d ∈ s.takesOf b.group) (hp : (s.entry d).pending = some p)
    (he : p.expires = true) {n : NextTake} (hn : (s.entry d).next = some n) (hl : s.link.state = .up) :
    if (s.placement b.group).countdown = 0 ∧ (s.placement b.group).offset ≤ s.since b.group then
      Asked (s.takesAtBoundary b) d (heldTake n (s.placement b.group))
    else ((s.takesAtBoundary b).entry d).pending = some (heldTake n (s.placement b.group)) := by
  obtain ⟨hg, -⟩ := mem_takesOf.1 hd
  have hentry := takesTreated_expires hd hp he
  have hq : ((s.takesTreated b).entry d).pending = some (heldTake n (s.placement b.group)) := by
    rw [hentry, ← hg]
    exact promotedTake_some hn hl
  have hover : p.phase ≠ .held := by rw [(expires_iff.1 he).1]; decide
  have hask : d ∈ s.askingAt b ↔ (s.placement b.group).countdown = 0
      ∧ (s.placement b.group).offset ≤ s.since b.group := by
    rw [mem_askingAt hd hq (by rw [hentry]; exact hg), shortFrame_iff hp]
    exact ⟨fun h => h.elim (fun h => absurd h.1 hover) (·.2), fun h => .inr ⟨rfl, h⟩⟩
  split
  · exact takesAtBoundary_asked (hask.2 ‹_›) hq
  · rw [takesAtBoundary_entry_of_not_asking (mt hask.1 ‹_›), hq]

theorem takesAtBoundary_stale (hs : TokenLaw s) (hd : d ∈ s.takesOf b.group)
    (hp : (s.entry d).pending = some p) (he : p.expires = true) {k : Token} (hk : p.token = some k) :
    (s.takesAtBoundary b).token k = .stale d := by
  have hstale := takesTreated_stale hs hd hp he hk
  rw [(takesAtBoundary_shared s b).token, if_neg fun hm => ?_, hstale]
  have hfree := mem_freeTokens.1 (List.mem_of_mem_take hm)
  rw [hstale] at hfree
  cases hfree

/-! ### All the takes of the group together -/

theorem takesAtBoundary_counts (s : State) (b : Boundary) :
    (s.takesAtBoundary b).map.dests = s.map.dests
      ∧ (s.takesAtBoundary b).map.sources = s.map.sources := by
  obtain ⟨hdests, hsources⟩ := takesTreated_counts s b
  have hcounts := foldl_requestToken_counts (s.askingAt b) (s.takesTreated b)
  rw [← takesAtBoundary_eq] at hcounts
  exact ⟨hcounts.1.trans hdests, hcounts.2.trans hsources⟩

theorem takesAtBoundary_walls (s : State) (b : Boundary) : (s.takesAtBoundary b).walls
    = (s.queueTiles ((s.endedAt b.group).flatMap fun d => (s.entry d).tiles)).walls :=
  (asking_same s b .walls (by decide)).trans (takesTreated_walls s b)

theorem takesAtBoundary_accounts (s : State) (b : Boundary) : (s.takesAtBoundary b).accounts
    = ((s.endedAt b.group).foldl
      (fun v d => v.reportTakes d .timedOut (s.link.state != .up)) s).accounts :=
  (accounts_of_same (asking_same s b)).trans (takesTreated_accounts s b)

theorem endedAt_nodup (s : State) (g : Group) : (s.endedAt g).Nodup := (takesOf_nodup s g).filter _

theorem mem_endedAt (hd : d ∈ s.takesOf b.group) (hp : (s.entry d).pending = some p)
    (he : p.expires = true) : d ∈ s.endedAt b.group :=
  List.mem_filter.2 ⟨hd, by rw [expires_of_pending hp, he]⟩

end

/-- Settles O34: all takes of the group are treated in turn, then those dispatched or due ask. -/
theorem boundaryTreatsEachTakeOnce : Obligations.BoundaryTreatsEachTakeOnce := by
  unfold Obligations.BoundaryTreatsEachTakeOnce
  intro s b t ended v
  have hended : ended = s.endedAt b.group := (endedAt_eq s b.group).symm
  clear_value ended
  subst hended
  obtain ⟨hdests, hsources⟩ := takesAtBoundary_counts s b
  obtain ⟨hcontrol, hsalvos⟩ := accounts_eq_iff.1 (takesAtBoundary_accounts s b)
  obtain ⟨hqueue, hline⟩ := takesTreated_line s b
  have hrec : t.recorder = (s.takesTreated b).recorder := asking_same s b .recorder (by decide)
  have hwalls := takesAtBoundary_walls s b
  refine ⟨(takesAtBoundary_same s b).mono (by decide), hdests, hsources, hcontrol, hsalvos,
    fun hfan => queued_of_walls hwalls (hfan.nodup_flatMap (endedAt_nodup s _)), by rw [hrec, hqueue],
    by rw [hrec, hline], by rw [hrec, takesTreated_high],
    fun c => (chan_of_same (asking_same s b) (c := c)).trans (takesTreated_chan s b c), fun d => ?_⟩
  refine ⟨takesAtBoundary_untouched, fun p hg hp => ?_⟩
  have hd : d ∈ s.takesOf b.group := mem_takesOf.2 ⟨hg, by simp [hp]⟩
  have hstays (h : p.phase ≠ .overdue ∨ 1 < p.overdue.getD 0) : p.expires = false := by
    simpa [Pending.expires, or_iff_not_imp_left] using h
  refine ⟨fun h => takesAtBoundary_stays hd hp (hstays h), fun hph => ?_, fun hph hl => ?_,
    fun hph hl => ?_, fun hph ho => ?_, fun hph ho => ?_, fun hph hc => ?_, fun hph hc => ?_⟩
  · exact takesAtBoundary_notHeld hd hp (hstays (.inl (by simp [hph]))) (by simp [hph])
      (by simp [Pending.treated, hph]) (by simp [hph])
  · exact takesAtBoundary_notHeld hd hp (hstays (.inl (by simp [hph]))) (by simp [hph])
      (by simp [Pending.treated, Pending.enterOverdue, hph, hl]) (by simp)
  · exact takesAtBoundary_notHeld hd hp (hstays (.inl (by simp [hph]))) (by simp [hph])
      (by simp [Pending.treated, hph, hl]) (by simp [hph])
  · exact takesAtBoundary_notHeld hd hp (hstays (.inr ho)) (by simp [hph])
      (by simp [Pending.treated, hph]) (by simp [hph])
  · have he : p.expires = true := expires_iff.2 ⟨hph, ho⟩
    exact ⟨takesAtBoundary_expires hd hp he, takesAtBoundary_noPromotion hd hp he,
      fun n hn hl => takesAtBoundary_promotes hd hp he hn hl,
      fun hs k hk => takesAtBoundary_stale hs hd hp he hk,
      fun w i hi => mem_queue_of_walls hwalls (List.mem_flatMap.2 ⟨d, mem_endedAt hd hp he, hi⟩)⟩
  · have he : p.expires = false := hstays (.inl (by simp [hph]))
    have hq : p.treated b s.sched.timeout = { p with landing := p.landing - 1 } := by
      simp [Pending.treated, hph, hc]
    exact takesAtBoundary_asks hd hp he hq ((mem_askingAt_stays hd hp he hq).2 (.inl ⟨hph, hc⟩))
  · exact takesAtBoundary_heldOn hd hp hph hc

end Sys2Proof.Machine
end

section
/-! O38: a report frees the token of a take (R53, R77). -/

namespace Sys2Proof.Machine

/-- A waiting take that has been granted a freed token (R53). -/
def Pending.granted (p : Pending) (k : Token) (now landing : Nat) : Pending :=
  { p with phase := .sent, token := some k, instant := some now, deferred := true, landing := landing }

section
variable {s : State} {k : Token}

theorem freeToken_unclaimed (hw : s.link.waiting = []) : s.freeToken k = s.setToken k .free := by
  rw [State.freeToken, hw]

/-- What a grant writes: the entry of the oldest waiting take, and the link. -/
structure TokenGranted (s t : State) (k : Token) (c : Dest) (cs : List Dest) (q : Pending) : Prop where
  map      : t.map = (s.setEntry c { s.entry c with
    pending := some (q.granted k s.now (s.grantedLanding (s.entry c).group)) }).map
  token    : t.token k = .inUse
  waiting  : t.link.waiting = cs
  outbound : t.link.outbound = s.link.outbound ++ [.routeReq c q.source k]

theorem freeToken_grants {c : Dest} {cs : List Dest} {q : Pending} (hw : s.link.waiting = c :: cs)
    (hq : (s.entry c).pending = some q) : TokenGranted s (s.freeToken k) k c cs q := by
  have heq : s.freeToken k = ({ s.setToken k .inUse with
      link := { (s.setToken k .inUse).link with waiting := cs } }.setPending c
        (q.granted k s.now (s.grantedLanding (s.entry c).group))).sendMatrix
          (.routeReq c q.source k) := by
    have hentry : ∀ l : Link, State.entry { s with link := l } c = s.entry c := fun _ => rfl
    simp only [State.freeToken, hw, State.setToken, State.grantWaiting, hentry, hq]
    rfl
  rw [heq]
  refine ⟨rfl, ?_, by rw [sendMatrix_waiting]; rfl, by rw [sendMatrix_outbound]; rfl⟩
  rw [State.token, sendMatrix_pool]
  exact s.setToken_token_self k .inUse

theorem grantWaiting_steady (s : State) (c : Dest) (k : Token) :
    s.link.Steady (s.grantWaiting c k).link := by
  unfold State.grantWaiting
  split
  · exact .refl _
  · exact sendMatrix_steady _ _

theorem freeToken_steady (s : State) (k : Token) : s.link.Steady (s.freeToken k).link := by
  unfold State.freeToken
  split
  · exact ⟨rfl, rfl, rfl, rfl⟩
  · exact Link.Steady.trans ⟨rfl, rfl, rfl, rfl⟩ (grantWaiting_steady _ _ k)

/-- A report has freed a token (R77). -/
structure TokenFreed (s t : State) (k : Token) : Prop where
  same      : SameBut [.map, .link] s t
  steady    : s.link.Steady t.link
  unclaimed : s.link.waiting = [] → t = s.setToken k .free
  granted   : ∀ c cs q, s.link.waiting = c :: cs → (s.entry c).pending = some q →
    TokenGranted s t k c cs q

theorem freeToken_freed (s : State) (k : Token) : TokenFreed s (s.freeToken k) k :=
  ⟨freeToken_same s k, freeToken_steady s k, freeToken_unclaimed, fun _ _ _ => freeToken_grants⟩

end

end Sys2Proof.Machine
end

section
/-! O38: the recorder unit at a source-change event (R143). -/

namespace Sys2Proof.Machine

/-! ### The recorder line (R137) -/

/-- What stands on the recorder line and waits behind it. -/
def Recorder.commands (r : Recorder) : List RecCommand × Option RecCommand := (r.queue, r.line)

theorem Recorder.begin_keeps (r : Recorder) :
    r.begin.channels = r.channels ∧ r.begin.high = r.high := by
  unfold Recorder.begin
  split <;> exact ⟨rfl, rfl⟩

theorem Recorder.issue_keeps (r : Recorder) (c : ChannelNo) (op : RecOp) (g : Group) (f : FrameNo) :
    (r.issue c op g f).channels = r.channels ∧ (r.issue c op g f).high = r.high := by
  unfold Recorder.issue
  split
  · exact Recorder.begin_keeps _
  · split <;> exact ⟨rfl, rfl⟩

theorem issue_chan (s : State) (c : ChannelNo) (op : RecOp) (g : Group) (f : FrameNo) (b : ChannelNo) :
    (s.issue c op g f).chan b = s.chan b :=
  congrArg (fun v : Vector Channel 16 => v[b]) (s.recorder.issue_keeps c op g f).1

/-- A command that is issued meets only the commands of the line. -/
theorem Recorder.issue_commands {a b : Recorder} (h : a.commands = b.commands) (c : ChannelNo)
    (op : RecOp) (g : Group) (f : FrameNo) : (a.issue c op g f).commands = (b.issue c op g f).commands := by
  obtain ⟨hq, hl⟩ := Prod.mk.inj h
  unfold Recorder.issue
  rw [hq]
  cases queuedFor b.queue c with
  | none =>
    simp only [Recorder.begin, hl]
    split <;> simp_all [Recorder.commands]
  | some old =>
    dsimp only
    cases mergeOp old op g f <;> simp [Recorder.commands, hl]

/-! ### One channel is split -/

section
variable (g : Group) (f : FrameNo) (cause : ChangeCause) (old new : Option Source) (s : State)
  (c : ChannelNo)

/-- The state in which the channel's clip has advanced and its SPLIT is issued, before the mark. -/
def State.clipIssued (s : State) (c : ChannelNo) (g : Group) (f : FrameNo) : State :=
  (s.setChan c { s.chan c with clip := (s.chan c).clip + 1 }).issue c
    (.split ((s.chan c).clip + 1) g f) g f

theorem splitChannel_eq : s.splitChannel g f cause old new c = (s.clipIssued c g f).logMark c
    ⟨markOf cause, g, f, (s.chan c).clip + 1, some old, some new⟩ := rfl

theorem clipIssued_chan (b : ChannelNo) : (s.clipIssued c g f).chan b
    = if b = c then { s.chan c with clip := (s.chan c).clip + 1 } else s.chan b := by
  rw [← s.setChan_chan c _ b]
  exact issue_chan (s.setChan c _) c _ g f b

theorem clipIssued_marksHigh : (s.clipIssued c g f).marksHigh [c] = s.marksHigh [c] := by
  have hself := clipIssued_chan g f s c c
  rw [if_pos rfl] at hself
  by_cases h : (s.chan c).marks.length = 23 <;> simp [State.marksHigh, hself, h]

theorem splitChannel_chan_self : (s.splitChannel g f cause old new c).chan c
    = Channel.log { s.chan c with clip := (s.chan c).clip + 1 }
        ⟨markOf cause, g, f, (s.chan c).clip + 1, some old, some new⟩ := by
  rw [splitChannel_eq, logMark_chan_self, clipIssued_chan, if_pos rfl]

theorem splitChannel_logsOwn : LogsOwn (State.splitChannel g f cause old new) where
  other s c b h := by rw [splitChannel_eq, logMark_chan_of_ne _ c _ h, clipIssued_chan, if_neg h]
  high s c := by
    rw [splitChannel_eq, logMark_high, clipIssued_marksHigh]
    exact congrArg (· ++ s.marksHigh [c]) (Recorder.issue_keeps _ c _ g f).2

theorem splitChannel_commands : (s.splitChannel g f cause old new c).recorder.commands
    = (s.recorder.issue c (.split ((s.chan c).clip + 1) g f) g f).commands := by
  rw [splitChannel_eq, Recorder.commands, logMark_queue, logMark_line]
  exact Recorder.issue_commands (a := (s.setChan c { s.chan c with clip := (s.chan c).clip + 1 }).recorder)
    (b := s.recorder) rfl c _ g f

end

/-! ### All that record one destination -/

/-- The recorder after the SPLITs of the channels that record a destination, in ascending order. -/
def State.splitsOf (s : State) (d : Dest) : Recorder :=
  (s.recordersOf d).foldl (fun r c => r.issue c
    (.split ((s.chan c).clip + 1) (s.entry d).group (s.destStamp d)) (s.entry d).group (s.destStamp d))
    s.recorder

theorem foldl_splitChannel_commands (g : Group) (f : FrameNo) (cause : ChangeCause)
    (old new : Option Source) {l : List ChannelNo} (hl : l.Nodup) {s u : State} {r : Recorder}
    (hr : u.recorder.commands = r.commands) (hc : ∀ c ∈ l, u.chan c = s.chan c) :
    (l.foldl (State.splitChannel g f cause old new) u).recorder.commands
      = (l.foldl (fun r c => r.issue c (.split ((s.chan c).clip + 1) g f) g f) r).commands := by
  induction l generalizing u r with
  | nil => exact hr
  | cons c l ih =>
    obtain ⟨hcl, hl⟩ := List.nodup_cons.1 hl
    refine ih hl ?_ fun b hb => ?_
    · rw [splitChannel_commands, hc c List.mem_cons_self]
      exact Recorder.issue_commands hr c _ g f
    · rw [(splitChannel_logsOwn g f cause old new).other u c b (ne_of_mem_of_not_mem hb hcl)]
      exact hc b (List.mem_cons_of_mem c hb)

section
variable (s : State) (d : Dest) (cause : ChangeCause) (old new : Option Source)

theorem splitRecorders_eq : s.splitRecorders d cause old new = (s.recordersOf d).foldl
    (State.splitChannel (s.entry d).group (s.destStamp d) cause old new) s := by
  rw [State.splitRecorders, recordingOn_eq]
  rfl

theorem splitRecorders_commands : (s.splitRecorders d cause old new).recorder.commands
    = (s.splitsOf d).commands := by
  rw [splitRecorders_eq]
  exact foldl_splitChannel_commands _ _ cause old new (recordersOf_nodup s d) rfl fun _ _ => rfl

theorem splitRecorders_high : (s.splitRecorders d cause old new).recorder.high
    = s.recorder.high ++ s.marksHigh (s.recordersOf d) := by
  rw [splitRecorders_eq]
  exact (splitChannel_logsOwn ..).foldl_high (recordersOf_nodup s d) s

theorem splitRecorders_chan (c : ChannelNo) : (s.splitRecorders d cause old new).chan c
    = if c ∈ s.recordersOf d then Channel.log { s.chan c with clip := (s.chan c).clip + 1 }
        ⟨markOf cause, (s.entry d).group, s.destStamp d, (s.chan c).clip + 1, some old, some new⟩
      else s.chan c := by
  rw [splitRecorders_eq]
  have hown := splitChannel_logsOwn (s.entry d).group (s.destStamp d) cause old new
  exact hown.foldl_chan (new := fun u c => Channel.log { u.chan c with clip := (u.chan c).clip + 1 }
      ⟨markOf cause, (s.entry d).group, s.destStamp d, (u.chan c).clip + 1, some old, some new⟩)
    (fun u c => splitChannel_chan_self _ _ cause old new u c) (fun u c b hb => by rw [hown.other u c b hb])
    (recordersOf_nodup s d) s c

end

/-! ### Which SPLITs an event has issued -/

theorem recordersAmong_single (s : State) (d : Dest) : s.recordersAmong [d] = s.recordersOf d := by
  refine List.filter_congr fun c _ => ?_
  cases (s.chan c).bound <;> simp

theorem recordersAmong_nil (s : State) : s.recordersAmong [] = [] := by
  simp [State.recordersAmong]

theorem splitsIssued_none {s t : State} (h : t.recorder.commands = s.recorder.commands) :
    SplitsIssued s t [] := by
  simpa [SplitsIssued, recordersAmong_nil, Recorder.commands] using h

theorem splitsIssued_single {s t : State} {d : Dest} (h : t.recorder.commands = (s.splitsOf d).commands) :
    SplitsIssued s t [d] := by
  have hfold : (s.recordersAmong [d]).foldl (fun r c => r.issue c
      (.split ((s.chan c).clip + 1) (s.chanGroup c) (s.stamp (s.chanGroup c))) (s.chanGroup c)
      (s.stamp (s.chanGroup c))) s.recorder = s.splitsOf d := by
    rw [recordersAmong_single]
    refine List.foldl_ext _ _ _ fun r c hc => ?_
    have hgroup : s.chanGroup c = (s.entry d).group := by rw [State.chanGroup, (mem_recordersOf.1 hc).2]
    rw [hgroup]
    rfl
  rw [SplitsIssued, hfold]
  exact Prod.mk.inj h

/-- The SPLITs of an event are read from the recorder, the groups, and the group of the destination. -/
theorem splitsOf_congr {s u : State} {d : Dest} (hr : u.recorder = s.recorder)
    (hgrp : u.groups = s.groups) (hg : (u.entry d).group = (s.entry d).group) :
    u.splitsOf d = s.splitsOf d := by
  have hchan (c : ChannelNo) : u.chan c = s.chan c := by rw [State.chan, State.chan, hr]
  have hrecorders : u.recordersOf d = s.recordersOf d :=
    recordersOf_congr (fun c => by rw [hchan]; exact ⟨rfl, rfl⟩) d
  simp only [State.splitsOf, hrecorders, hchan, State.destStamp, State.stamp, State.grp, hr, hgrp, hg]

end Sys2Proof.Machine
end

section
/-! O38: a matched report ends the take whose token it names (R56 to R58, R60, R61). -/

namespace Sys2Proof.Machine

/-! ### A confirmed source is written (R9, R143) -/

/-- A source has been written into the entry of a destination: where it differs from the one held, each
channel that records the destination has been split. -/
structure SourceWritten (s t : State) (d : Dest) (x : Option Source) (cause : ChangeCause) : Prop where
  same     : SameBut [.map, .tally, .walls, .recorder] s t
  map      : t.map = (s.setEntry d { s.entry d with source := x }).map
  commands : t.recorder.commands
    = if (s.entry d).source ≠ x then (s.splitsOf d).commands else s.recorder.commands
  high     : t.recorder.high = s.recorder.high
    ++ if (s.entry d).source ≠ x then s.marksHigh (s.recordersOf d) else []
  chan     : ∀ c, t.chan c = if (s.entry d).source ≠ x ∧ c ∈ s.recordersOf d
    then s.cutChannel d (markOf cause) x c else s.chan c

theorem writeSource_written (s : State) (d : Dest) (x : Option Source) (cause : ChangeCause) :
    SourceWritten s (s.writeSource d x cause) d x cause := by
  have hsame := writeSource_same s d x cause
  by_cases h : (s.entry d).source = x
  · have hself : s.writeSource d x cause = s := if_pos h
    rw [hself] at hsame ⊢
    refine ⟨hsame, ?_, by simp [h], by simp [h], by simp [h]⟩
    rw [← h]
    exact (congrArg State.map (setEntry_self s d)).symm
  · generalize hu : (s.setEntry d { s.entry d with source := x }).sourceShown d (s.entry d).source x = u
    have hstep : s.writeSource d x cause = u.splitRecorders d cause (s.entry d).source x :=
      (if_neg h).trans (congrArg (State.splitRecorders · d cause (s.entry d).source x) hu)
    have hshown := hu ▸ sourceShown_same (s.setEntry d { s.entry d with source := x }) d
      (s.entry d).source x
    have hboth : SameBut [.map, .tally, .walls] s u :=
      (setEntry_same s d _).comp hshown (by decide) (by decide)
    have humap : u.map = (s.setEntry d { s.entry d with source := x }).map := hshown .map (by decide)
    have hentry := entry_of_map humap
    have hrec : u.recorder = s.recorder := hboth .recorder (by decide)
    have hchan (c : ChannelNo) : u.chan c = s.chan c := chan_of_same hboth (c := c)
    have hrecorders : u.recordersOf d = s.recordersOf d :=
      recordersOf_congr (fun c => by rw [hchan]; exact ⟨rfl, rfl⟩) d
    rw [hstep] at hsame ⊢
    refine ⟨hsame, ?_, ?_, ?_, fun c => ?_⟩
    · exact (splitRecorders_same u d cause _ x .map (by decide)).trans humap
    · rw [splitRecorders_commands, if_pos h,
        splitsOf_congr hrec (hboth .groups (by decide)) (by rw [hentry])]
    · rw [splitRecorders_high, hrec, hrecorders, if_pos h, marksHigh_congr fun c _ => hchan c]
    · rw [splitRecorders_chan, hrecorders, hchan, hentry, State.destStamp, hentry, stamp_of_same hboth,
        State.cutChannel]
      simp only [ne_eq, h, not_false_eq_true, true_and]

/-! ### The take ends (R58) -/

/-- What a matched report does to a take and its destination once the token is free, but for the asking
of the promoted take: Λ, the source, the end of the take. -/
def State.confirmed (s : State) (d : Dest) (x : Source) (p : Pending) (held : Nat) : State :=
  (((s.measure p held).writeSource d (some x) .cut).setSuspect d false).endPending d (matchedResult p x)

theorem applyMatched_eq {s : State} {d : Dest} {p : Pending} (hp : (s.entry d).pending = some p)
    (x : Source) (k : Token) (held : Nat) :
    s.applyMatched d x k held = ((s.freeToken k).confirmed d x p held).dispatchDue [d] := by
  rw [State.applyMatched, hp]
  rfl

/-- A take has been confirmed by a report of the source `x`. -/
structure TakeConfirmed (s t : State) (d : Dest) (x : Source) (p : Pending) (held : Nat) : Prop where
  same     : SameBut [.control, .map, .sched, .link, .salvos, .tally, .walls, .recorder] s t
  sched    : t.sched = (s.measure p held).sched
  link     : t.link = s.link
  map      : t.map = (s.setEntry d { s.entry d with
    source := some x, suspect := false, pending := (s.measure p held).promotedTake d, next := none }).map
  tiles    : ∀ w i, (w, i) ∈ (s.entry d).tiles → i ∈ (t.wall w).queue
  accounts : t.accounts = (s.reportTakes d (matchedResult p x) false).accounts
  commands : t.recorder.commands
    = if (s.entry d).source ≠ some x then (s.splitsOf d).commands else s.recorder.commands
  high     : t.recorder.high = s.recorder.high
    ++ if (s.entry d).source ≠ some x then s.marksHigh (s.recordersOf d) else []
  chan     : ∀ c, t.chan c = if (s.entry d).source ≠ some x ∧ c ∈ s.recordersOf d
    then s.cutChannel d .cut (some x) c else s.chan c

theorem matchedResult_ne_superseded (p : Pending) (x : Source) : matchedResult p x ≠ .superseded := by
  unfold matchedResult
  split
  · decide
  · split <;> decide

theorem confirmed_confirms {s : State} {d : Dest} {p : Pending} (hp : (s.entry d).pending = some p)
    (hph : p.phase ≠ .waiting) (hl : s.link.state = .up) (x : Source) (held : Nat) :
    TakeConfirmed s (s.confirmed d x p held) d x p held := by
  unfold State.confirmed
  generalize hu : s.measure p held = u
  have hmeasured : SameBut [.sched] s u := hu ▸ withSched_same s _
  have huentry : u.entry d = s.entry d := entry_of_same hmeasured (by decide) d
  have hwritten := writeSource_written u d (some x) .cut
  generalize u.writeSource d (some x) .cut = v at *
  have hcleared := setSuspect_same v d false
  have hclearedMap := setSuspect_map v d false
  generalize v.setSuspect d false = w at *
  have huw : SameBut [.map, .tally, .walls, .recorder] u w :=
    hwritten.same.comp hcleared (by decide) (by decide)
  have hsw : SameBut [.sched, .map, .tally, .walls, .recorder] s w :=
    hmeasured.comp huw (by decide) (by decide)
  have hwmap : w.map = (s.setEntry d { s.entry d with source := some x, suspect := false }).map := by
    rw [hclearedMap, entry_of_map hwritten.map, huentry]
    have hset : (u.setEntry d { s.entry d with source := some x }).map
        = (s.setEntry d { s.entry d with source := some x }).map := by
      simp only [State.setEntry, show u.map = s.map from hmeasured .map (by decide)]
    exact setEntry_map_twice ((huentry ▸ hwritten.map).trans hset)
  have hwentry := entry_of_map hwmap
  have hwlink : w.link = s.link := link_of_same hsw
  have hends : TakeEnds w _ d (matchedResult p x) :=
    endPending_ends (p := p) (by rw [hwentry]; exact hp) (matchedResult_ne_superseded p x)
  generalize w.endPending d (matchedResult p x) = t at *
  have hpromoted : w.promotedTake d = u.promotedTake d :=
    promotedTake_congr (by rw [link_of_same huw]) (by rw [hwentry, huentry]) (by rw [hwentry, huentry])
      (placement_of_same huw ..)
  have hrec : t.recorder = v.recorder :=
    (hends.same .recorder (by decide)).trans (hcleared .recorder (by decide))
  have hurec : u.recorder = s.recorder := hmeasured .recorder (by decide)
  have hchan (c : ChannelNo) : u.chan c = s.chan c := chan_of_same hmeasured (c := c)
  have hrecorders : u.recordersOf d = s.recordersOf d :=
    recordersOf_congr (fun c => by rw [hchan]; exact ⟨rfl, rfl⟩) d
  have hsplits : u.splitsOf d = s.splitsOf d :=
    splitsOf_congr hurec (hmeasured .groups (by decide)) (by rw [huentry])
  rw [← hu] at hpromoted
  refine ⟨hsw.comp hends.same (by decide) (by decide), ?_, ?_, ?_, fun a i hi => ?_, ?_, ?_, ?_,
    fun c => ?_⟩
  · rw [hu]
    exact (hends.same .sched (by decide)).trans (huw .sched (by decide))
  · rw [hends.link, State.waitingWithout, hwentry, hp, hwlink]
    simp [hph]
  · rw [hends.map, hwentry, hpromoted]
    exact setEntry_map_twice hwmap
  · exact mem_queue_of_walls hends.walls (by rw [hwentry]; exact hi)
  · rw [hends.accounts, hwlink, hl]
    exact reportTakes_accounts (accounts_of_same hsw) (hsw .groups (by decide)) (by rw [hwentry])
      (by rw [hwentry]) (by rw [hwentry]) _ _
  · rw [hrec, hwritten.commands, huentry, hsplits, hurec]
  · rw [hrec, hwritten.high, huentry, hrecorders, hurec, marksHigh_congr fun c _ => hchan c]
  · have ht : t.chan c = v.chan c := by rw [State.chan, State.chan, hrec]
    rw [ht, hwritten.chan, huentry, hrecorders, hchan, State.cutChannel, State.cutChannel, huentry, hchan,
      stamp_of_same hmeasured]
    rfl

/-! ### A report is matched (R80, R174) -/

theorem token?_ofNat (k : Token) : token? (BitVec.ofNat 8 (k.1 + 1)).toNat = some k := by
  have hk : (k.1 + 1) % 2 ^ 8 = k.1 + 1 := Nat.mod_eq_of_lt (by omega)
  rw [BitVec.toNat_ofNat, hk, token?, if_neg (by omega)]
  exact below?_val k

theorem classify_matched {s : State} {d : Dest} {p : Pending} {k : Token} (hk : s.token k = .inUse)
    (hp : (s.entry d).pending = some p) (hpk : p.token = some k) :
    s.classify d (BitVec.ofNat 8 (k.1 + 1)) false = .matched k := by
  have hholds : s.holds d k = true := (holds_iff s d k).2 ⟨p, hp, hpk⟩
  simp only [State.classify, token?_ofNat, hk, hholds, Bool.false_eq_true, if_false, if_true]

/-- With no frame under reception there is no gap to end. -/
theorem endMatrixGap_hunting {s : State} (h : s.link.receiver = .hunting) : s.endMatrixGap = s := by
  have hstale : s.matrixStale s.now = false := by simp [State.matrixStale, h]
  rw [State.endMatrixGap, if_neg (by simp [hstale])]

theorem exec_routeReport_matched {s : State} {d : Dest} {p : Pending} {k : Token} (τ : Nat) (x : Source)
    (held : Word16) (hr : s.pins.reset = false) (hrec : s.link.receiver = .hunting)
    (hl : s.link.state = .up) (hd : d.1 < s.map.dests) (hk : s.token k = .inUse)
    (hp : (s.entry d).pending = some p) (hpk : p.token = some k) :
    exec (.routeReport τ (BitVec.ofNat 16 d.1) (BitVec.ofNat 16 x.1) (BitVec.ofNat 8 (k.1 + 1)) held 0) s
      = .next ((((s.clock τ).freeToken k).confirmed d x p held.toNat).dispatchDue [d]).paid := by
  have hdn : (BitVec.ofNat 16 d.1).toNat = d.1 := by
    rw [BitVec.toNat_ofNat]; exact Nat.mod_eq_of_lt (by omega)
  have hxn : (BitVec.ofNat 16 x.1).toNat = x.1 := by
    rw [BitVec.toNat_ofNat]; exact Nat.mod_eq_of_lt (by omega)
  have hreport : (s.clock τ).endMatrixGap.report ⟨(BitVec.ofNat 16 d.1).toNat, (BitVec.ofNat 16 x.1).toNat,
      BitVec.ofNat 8 (k.1 + 1), held.toNat, (0 : Byte) != 0⟩
      = ((s.clock τ).applyMatched d x k held.toNat) := by
    have hup : (s.clock τ).link.state = .up := hl
    have hpresent : (s.clock τ).present d = true := decide_eq_true hd
    have hclass := classify_matched (s := s.clock τ) hk hp hpk
    rw [endMatrixGap_hunting (s := s.clock τ) hrec, State.report, hup, State.upReport, hdn, hxn,
      dest?_val, source?_val]
    simp only [hpresent, Bool.not_true, Bool.false_eq_true, if_false, bne_self_eq_false, hclass]
  refine congrArg Host.Outcome.next ?_
  rw [State.wholeMessage, if_pos (.inl hrec), event_eq_paid hr, hreport,
    applyMatched_eq (s := s.clock τ) hp]

end Sys2Proof.Machine
end

section
/-! O38: the freed token, the confirmed take and the promoted one together (R58, R61). -/

namespace Sys2Proof.Machine

/-! ### The take that is promoted asks when it is due -/

section
variable {s t : State} {d : Dest} {x : Source} {p : Pending} {held : Nat}

theorem TakeConfirmed.dispatched_entry (h : TakeConfirmed s t d x p held) : (t.dispatchDue [d]).entry d
    = { s.entry d with
      source := some x, suspect := false, pending := ((t.dispatchDue [d]).entry d).pending, next := none } := by
  have hframe := dispatchDue_one_entry t d
  rwa [entry_of_map h.map] at hframe

theorem TakeConfirmed.dispatched_onlyEntry (h : TakeConfirmed s t d x p held) :
    OnlyEntry d s (t.dispatchDue [d]) := (onlyEntry_of_map h.map).trans (dispatchDue_one_onlyEntry t d)

theorem TakeConfirmed.dispatched_steady (h : TakeConfirmed s t d x p held) :
    s.link.Steady (t.dispatchDue [d]).link := h.link ▸ dispatchDue_one_steady t d

theorem TakeConfirmed.pending_none (h : TakeConfirmed s t d x p held) (hn : (s.entry d).next = none) :
    (t.entry d).pending = none := by
  rw [entry_of_map h.map]
  exact promotedTake_none (.inl hn)

/-- Without a next take nothing asks. -/
theorem TakeConfirmed.dispatched_none (h : TakeConfirmed s t d x p held)
    (hn : (s.entry d).next = none) : t.dispatchDue [d] = t := dispatchDue_none (h.pending_none hn)

theorem TakeConfirmed.dispatched_promotes (h : TakeConfirmed s t d x p held) (hl : s.link.state = .up)
    {n : NextTake} (hn : (s.entry d).next = some n) {pl : Placement}
    (hpl : (s.measure p held).placement (s.entry d).group = pl) :
    if pl.countdown = 0 ∧ pl.offset ≤ s.since (s.entry d).group then
      Asked (t.dispatchDue [d]) d (heldTake n pl)
    else ((t.dispatchDue [d]).entry d).pending = some (heldTake n pl) := by
  have hentry := entry_of_map h.map
  have hpending : (t.entry d).pending = some (heldTake n pl) := by
    rw [hentry, ← hpl]
    exact promotedTake_some (s := s.measure p held) hn hl
  have hplaced := dispatchDue_placed hpending
  rwa [hentry, since_of_same h.same] at hplaced

end

/-! ### What the freeing of the token leaves -/

/-- Λ is filtered alike whatever has become of the map and the link. -/
theorem measure_same {ps : List Part} {s t : State} (h : SameBut ps s t)
    (hn : Part.now ∉ ps := by decide) (hq : Part.sched ∉ ps := by decide) (p : Pending) (held : Nat) :
    SameBut ps (s.measure p held) (t.measure p held) := by
  have hnow : t.now = s.now := h .now hn
  have hsched : t.sched = s.sched := h .sched hq
  have hall : SameBut (.sched :: ps) (s.measure p held) (t.measure p held) :=
    ((withSched_same s _).symm.comp h (by simp) (List.subset_cons_self _ _)).comp
      (withSched_same t _) (List.Subset.refl _) (by simp)
  intro q hqs
  by_cases hsch : q = .sched
  · subst hsch
    change (t.measure p held).sched = (s.measure p held).sched
    simp only [State.measure, hnow, hsched]
  · exact hall q (by simp [hsch, hqs])

theorem measure_eq (s : State) (p : Pending) (held : Nat) : s.measure p held = { s with
    sched := { s.sched with lead := ((s.sched.lead : Int)
      + ((min 65535 (s.now - p.instant.getD s.now - held) : Nat) - (s.sched.lead : Int))
        / (2 ^ s.sched.k : Nat)).toNat } } := by
  simp only [State.measure, leadFilter, filterStep, clamp, Nat.zero_max]

/-! ### The confirmed take, seen from before the token was freed -/

section
variable {s f w : State} {d : Dest} {x : Source} {p : Pending} {held : Nat} {k : Token}

theorem TakeConfirmed.accounts_before (h : TakeConfirmed f w d x p held)
    (hsf : SameBut [.now, .map, .link] s f) (he : f.entry d = s.entry d) :
    w.accounts = (s.reportTakes d (matchedResult p x) false).accounts := by
  rw [h.accounts]
  exact reportTakes_accounts (accounts_of_same hsf) (hsf .groups (by decide)) (by rw [he]) (by rw [he])
    (by rw [he]) _ _

theorem recordersOf_of_same (hsf : SameBut [.now, .map, .link] s f) (d : Dest) :
    f.recordersOf d = s.recordersOf d :=
  recordersOf_congr (fun c => by rw [chan_of_same hsf]; exact ⟨rfl, rfl⟩) d

theorem TakeConfirmed.high_before (h : TakeConfirmed f w d x p held)
    (hsf : SameBut [.now, .map, .link] s f) (he : f.entry d = s.entry d) : w.recorder.high
      = s.recorder.high ++ if (s.entry d).source ≠ some x then s.marksHigh (s.recordersOf d) else [] := by
  rw [h.high, he, recordersOf_of_same hsf, marksHigh_congr fun c _ => chan_of_same hsf (c := c),
    show f.recorder = s.recorder from hsf .recorder (by decide)]

theorem TakeConfirmed.splits_before (h : TakeConfirmed f w d x p held)
    (hsf : SameBut [.now, .map, .link] s f) (he : f.entry d = s.entry d) :
    SplitsIssued s w (if (s.entry d).source ≠ some x then [d] else []) := by
  have hrec : f.recorder = s.recorder := hsf .recorder (by decide)
  have hcommands := h.commands
  rw [he, hrec, splitsOf_congr hrec (hsf .groups (by decide)) (by rw [he])] at hcommands
  split
  · next hcut =>
    exact splitsIssued_single (hcommands.trans (if_pos hcut))
  · next hcut =>
    exact splitsIssued_none (hcommands.trans (if_neg hcut))

theorem TakeConfirmed.chan_before (h : TakeConfirmed f w d x p held)
    (hsf : SameBut [.now, .map, .link] s f) (he : f.entry d = s.entry d) (c : ChannelNo) :
    w.chan c = if (s.entry d).source ≠ some x ∧ c ∈ s.recordersOf d
      then s.cutChannel d .cut (some x) c else s.chan c := by
  rw [h.chan, he, recordersOf_of_same hsf, chan_of_same hsf, State.cutChannel, State.cutChannel, he,
    chan_of_same hsf, stamp_of_same hsf]

/-- The freed token is FREE again, and nobody waits for it. -/
theorem TakeConfirmed.link_unclaimed (h : TakeConfirmed (s.setToken k .free) w d x p held)
    (hw : s.link.waiting = []) :
    w.token k = .free ∧ w.link.waiting = [] ∧ w.link.outbound = s.link.outbound := by
  rw [State.token, h.link]
  exact ⟨s.setToken_token_self k .free, hw, rfl⟩

/-- A take that has been granted the token keeps it, whether or not the promoted take asks. -/
theorem TakeConfirmed.token_granted (h : TakeConfirmed f w d x p held) {c : Dest} {cs : List Dest}
    {q : Pending} (hg : TokenGranted s f k c cs q) : (w.dispatchDue [d]).token k = .inUse := by
  have hwtoken : w.token k = .inUse := by
    rw [State.token, h.link]
    exact hg.token
  rw [dispatchDue_one_token_of_not_free (by simp [hwtoken]), hwtoken]

end

/-- Settles O38: the token is freed, the take confirmed, and the promoted take asks when it is due. -/
theorem matchedReportEndsTheTake : Obligations.MatchedReportEndsTheTake := by
  unfold Obligations.MatchedReportEndsTheTake
  intro τ s d x k held p hs hr ho hrec hl hd hk hp hpk hflight e now m lead result u v cut
  have hph : p.phase ≠ .waiting := by
    obtain h | h := hflight <;> simp [h]
  have hidle : d ∉ s.link.waiting := hs.not_mem_waiting fun q hq =>
    Option.some.inj (hp.symm.trans hq) ▸ hph
  have hstep := exec_routeReport_matched τ x held hr hrec hl hd hk hp hpk
  have hfree := freeToken_freed (s.clock τ) k
  have he : ((s.clock τ).freeToken k).entry d = e := freeToken_entry (s.clock τ) k hidle
  generalize (s.clock τ).freeToken k = f at *
  have hup : f.link.state = .up := hfree.steady.1.trans hl
  have hconf := confirmed_confirms (by rw [he]; exact hp) hph hup x held.toNat
  generalize f.confirmed d x p held.toNat = w at *
  have hsf : SameBut [.now, .map, .link] s f :=
    (clock_same s τ).comp hfree.same (by decide) (by decide)
  have hdue := dispatchDue_same w [d]
  have hwd : SameBut [.map, .control, .link, .recorder] w (w.dispatchDue [d]).paid :=
    hdue.comp (paid_same _) (by decide) (by decide)
  have hmeasured : (s.clock τ).measure p held.toNat = u := measure_eq (s.clock τ) p held.toNat
  have hmeasure : SameBut [.map, .link] u (f.measure p held.toNat) :=
    hmeasured ▸ measure_same hfree.same (p := p) (held := held.toNat)
  have hwrec : (w.dispatchDue [d]).recorder = w.recorder := hdue .recorder (by decide)
  have haccounts : (w.dispatchDue [d]).accounts = v.accounts :=
    (accounts_of_same hdue).trans (hconf.accounts_before hsf he)
  obtain ⟨hcontrol, hsalvos⟩ := accounts_eq_iff.1 haccounts
  have hentry := hconf.dispatched_entry
  have hnone := hconf.pending_none
  have hstays := hconf.dispatched_none
  have hpromotes (n : NextTake) (hn : e.next = some n) :=
    hconf.dispatched_promotes hup (by rw [he]; exact hn) rfl
  rw [he, placement_of_same hmeasure, since_of_same hfree.same] at hpromotes
  rw [he] at hentry hnone hstays
  refine ⟨(w.dispatchDue [d]).paid, hstep,
    hsf.comp (hconf.same.comp hwd (rs := [.control, .map, .sched, .link, .salvos, .tally, .walls,
      .recorder]) (by decide) (by decide)) (by decide) (by decide), ?_, ?_,
    hfree.steady.trans hconf.dispatched_steady, hentry, fun hn => ?_, fun n hn => ?_,
    fun hw => ⟨?_, fun hn => ?_⟩, fun c cs q hw hc hq => ?_, ?_, hsalvos, fun a i hi => ?_, ?_,
    fun c => ?_⟩
  · exact ((hwd .now (by decide)).trans (hconf.same .now (by decide))).trans
      (hfree.same .now (by decide))
  · exact (hwd .sched (by decide)).trans (hconf.sched.trans (hmeasure .sched (by decide)))
  · rw [hstays hn]
    exact hnone hn
  · intro pl
    split
    · next h =>
      exact ((if_pos h).mp (hpromotes n hn)).of_same (paid_same _)
    · next h =>
      exact (if_neg h).mp (hpromotes n hn)
  · obtain rfl := hfree.unclaimed hw
    exact hconf.dispatched_onlyEntry
  · obtain rfl := hfree.unclaimed hw
    rw [hstays hn]
    exact hconf.link_unclaimed (s := s.clock τ) hw
  · have hgrant := hfree.granted c cs q hw hq
    obtain ⟨-, -, honly⟩ := onlyEntry_of_map hgrant.map
    obtain ⟨-, -, hconfOnly⟩ := hconf.dispatched_onlyEntry
    refine ⟨fun b hbd hbc => (hconfOnly b hbd).trans (honly b hbc),
      (hconfOnly c hc).trans (entry_of_map hgrant.map), hconf.token_granted hgrant, fun hn => ?_⟩
    rw [hstays hn, show w.paid.link = f.link from hconf.link]
    exact ⟨hgrant.waiting, hgrant.outbound⟩
  · rw [State.paid, hwrec, hconf.high_before hsf he, ho, hcontrol]
    rfl
  · rw [wall_congr (hwd .walls (by decide))]
    exact hconf.tiles a i (by rw [he]; exact hi)
  · have hsplits := hconf.splits_before hsf he
    rw [SplitsIssued, ← hwrec] at hsplits
    exact hsplits
  · exact (congrArg (·.channels[c]) hwrec).trans (hconf.chan_before hsf he c)

end Sys2Proof.Machine
end

section
/-! O58: while the matrix link is not UP it is quiet (R72): what keeps that, operation by operation. -/

namespace Sys2Proof.Machine

/-! ### No take and no token out -/

/-- No destination holds a take, every token is FREE, and nobody waits for one. -/
def State.calm (s : State) : Prop :=
  (∀ d, (s.entry d).free) ∧ (∀ t, s.token t = .free) ∧ s.link.waiting = []

theorem quietUnlessUp_iff (s : State) : QuietUnlessUp s ↔ (s.link.state ≠ .up → s.calm) := Iff.rfl

section
variable {s t : State}

/-- Calm reads the takes, the pool and the waiting list. -/
theorem calm_of_takes (hs : s.calm) (he : ∀ d, (t.entry d).pending = (s.entry d).pending
    ∧ (t.entry d).next = (s.entry d).next) (hp : t.link.pool = s.link.pool)
    (hw : t.link.waiting = s.link.waiting) : t.calm := by
  obtain ⟨hfree, htoken, hwaiting⟩ := hs
  refine ⟨fun d => ⟨(he d).1.trans (hfree d).1, (he d).2.trans (hfree d).2⟩, fun k => ?_, hw.trans hwaiting⟩
  rw [State.token, hp]
  exact htoken k

/-- The part holds no take and no token. -/
def Part.takeless : Part → Bool
  | .map | .link => false
  | _ => true

theorem SameBut.takes {ps : List Part} (h : SameBut ps s t) (hp : ps.all Part.takeless = true) :
    t.map = s.map ∧ t.link = s.link :=
  ⟨h .map fun hm => Bool.false_ne_true (List.all_eq_true.1 hp .map hm),
    h .link fun hl => Bool.false_ne_true (List.all_eq_true.1 hp .link hl)⟩

theorem calm_of_same {ps : List Part} (hs : s.calm) (h : SameBut ps s t)
    (hp : ps.all Part.takeless = true) : t.calm := by
  obtain ⟨hmap, hlink⟩ := h.takes hp
  simpa only [State.calm, State.entry, State.token, hmap, hlink] using hs

theorem calm_of_link (hs : s.calm) (l : Link) (hp : l.pool = s.link.pool)
    (hw : l.waiting = s.link.waiting) : State.calm { s with link := l } :=
  calm_of_takes hs (fun _ => ⟨rfl, rfl⟩) hp hw

theorem calm_assertReset (s : State) : s.assertReset.calm := by
  refine ⟨fun d => ?_, fun k => ?_, rfl⟩
  · simp [State.assertReset, State.entry, State.reset, CrosspointMap.reset, Entry.free, Entry.reset]
  · simp [State.assertReset, State.token, Link.reset]

theorem ResetValues.calm (h : ResetValues s) : s.calm := by
  obtain ⟨-, hwaiting, -⟩ := h.link
  exact ⟨fun d => by rw [h.entries]; exact ⟨rfl, rfl⟩, h.pool, hwaiting⟩

/-! ### The link leaves UP, and a survey starts -/

theorem calm_departUp (s : State) (k : LinkCause) : (s.departUp k).calm :=
  ⟨departUp_free s k, fun t => by simp [State.departUp, State.clearPool, State.token], rfl⟩

theorem calm_setLink (hs : s.calm) (v : LinkState) (k : LinkCause) : (s.setLink v k).calm :=
  calm_of_same (calm_of_link hs { s.link with state := v } rfl rfl) (raise_same _ _) rfl

theorem calm_startSurvey (hs : s.calm) : s.startSurvey.calm :=
  calm_of_same (calm_of_link hs
    (State.sendMatrix { s with link := { s.link with state := .surveying } } .surveyReq).link
    (sendMatrix_pool _ _) (sendMatrix_waiting _ _)) (raise_same _ _) rfl

/-- Whatever the link leaves for DOWN, it leaves no take and no token out. -/
theorem QuietUnlessUp.calm_linkDown (hs : QuietUnlessUp s) (k : LinkCause) : (s.linkDown k).calm := by
  unfold State.linkDown
  split
  · next h => exact hs (by simp [h])
  · next h =>
    exact calm_setLink (calm_of_link (hs (by simp [h])) { s.link with queue := [] } rfl rfl) _ _
  · exact calm_departUp s k

theorem QuietUnlessUp.calm_resetLink (hs : QuietUnlessUp s) : s.resetLink.calm := by
  have hdown := calm_of_link (hs.calm_linkDown .blockReset)
    { (s.linkDown .blockReset).link with unmatched := 0 } rfl rfl
  unfold State.resetLink
  dsimp only
  split
  · exact calm_startSurvey hdown
  · exact hdown

/-! ### What the law reads -/

theorem quietUnlessUp_of_calm (h : s.calm) : QuietUnlessUp s := fun _ => h

theorem quietUnlessUp_of_up (h : s.link.state = .up) : QuietUnlessUp s := fun hn => absurd h hn

theorem QuietUnlessUp.of_takes (hs : QuietUnlessUp s) (hst : t.link.state = s.link.state)
    (he : ∀ d, (t.entry d).pending = (s.entry d).pending ∧ (t.entry d).next = (s.entry d).next)
    (hp : t.link.pool = s.link.pool) (hw : t.link.waiting = s.link.waiting) : QuietUnlessUp t :=
  fun hn => calm_of_takes (hs (hst ▸ hn)) he hp hw

theorem QuietUnlessUp.of_same {ps : List Part} (hs : QuietUnlessUp s) (h : SameBut ps s t)
    (hp : ps.all Part.takeless = true) : QuietUnlessUp t :=
  fun hn => calm_of_same (hs ((h.takes hp).2 ▸ hn)) h hp

theorem QuietUnlessUp.withLink (hs : QuietUnlessUp s) (l : Link) (hst : l.state = s.link.state)
    (hp : l.pool = s.link.pool) (hw : l.waiting = s.link.waiting) :
    QuietUnlessUp { s with link := l } :=
  hs.of_takes hst (fun _ => ⟨rfl, rfl⟩) hp hw

/-- Where a take stands the link is UP, and what leaves it there keeps the law. -/
theorem QuietUnlessUp.of_pending (hs : QuietUnlessUp s) {d : Dest} {p : Pending}
    (hp : (s.entry d).pending = some p) (hst : t.link.state = s.link.state) : QuietUnlessUp t := by
  refine quietUnlessUp_of_up (hst.trans (by_contra fun hn => ?_))
  obtain ⟨hfree, -⟩ := hs hn
  exact nomatch hp.symm.trans (hfree d).1

theorem quietUnlessUp_mapLaw : MapLaw QuietUnlessUp where
  quiet s t h hs := hs.of_same h rfl
  entry s d e hp hn _ hs := by
    refine hs.of_takes rfl (fun c => ?_) rfl rfl
    rw [State.setEntry_entry]
    split
    · subst c; exact ⟨hp, hn⟩
    · exact ⟨rfl, rfl⟩
  showDest {s} d hs := hs.of_same (announceDest_same s d) rfl
  showSource {s} x hs := hs.of_same (announceSource_same s x) rfl

end

/-! ### Takes ask and end -/

namespace QuietUnlessUp

variable {s : State} (hs : QuietUnlessUp s)
include hs

theorem requestToken (d : Dest) : QuietUnlessUp (s.requestToken d) := by
  cases hp : (s.entry d).pending with
  | none => simpa only [State.requestToken, hp] using hs
  | some p => exact hs.of_pending hp (requestToken_steady s d).1

theorem dispatchDue (ds : List Dest) : QuietUnlessUp (s.dispatchDue ds) :=
  dispatchDue_keeps (fun d _ hs => hs.requestToken d) ds hs

theorem endPending (d : Dest) (r : TakeResult) : QuietUnlessUp (s.endPending d r) := by
  cases hp : (s.entry d).pending with
  | none => simpa only [State.endPending, hp] using hs
  | some p =>
    refine hs.of_pending hp ?_
    rw [endPending_link hp]
    split <;> rfl

theorem treatTake (b : Boundary) (d : Dest) : QuietUnlessUp (s.treatTake b d) := by
  cases hp : (s.entry d).pending with
  | none => rwa [treatTake_none hp]
  | some p => exact hs.of_pending hp (treatTake_link_state s b d)

theorem takesAtBoundary (b : Boundary) : QuietUnlessUp (s.takesAtBoundary b) := by
  unfold State.takesAtBoundary
  refine foldl_keeps (fun d hs => ?_) _ (foldl_keeps (fun d hs => hs.treatTake b d) _ hs)
  split
  · exact hs.requestToken d
  · exact hs

theorem timeOut {d : Dest} {p : Pending} (hp : (s.entry d).pending = some p) (hph : p.phase = .overdue) :
    QuietUnlessUp (s.timeOut d) :=
  hs.of_pending hp ((congrArg Link.state (timeOut_timesOut hp hph).link).trans
    (makeStale_link_state s d p.token))

theorem freeToken (k : Token) : QuietUnlessUp (s.freeToken k) := by
  intro hn
  rw [(freeToken_steady s k).1] at hn
  obtain ⟨hfree, htoken, hwaiting⟩ := hs hn
  rw [freeToken_unclaimed hwaiting]
  refine ⟨hfree, fun j => ?_, hwaiting⟩
  rw [State.setToken_token]
  split
  · rfl
  · exact htoken j

/-! ### Reports and surveys -/

theorem unmatch : QuietUnlessUp s.unmatch := hs.withLink _ rfl rfl rfl

theorem applyMatched (d : Dest) (x : Source) (k : Token) (held : Nat) :
    QuietUnlessUp (s.applyMatched d x k held) := by
  unfold State.applyMatched
  split
  · exact hs
  · next p _ =>
    have hmeasured := (hs.freeToken k).of_same (withSched_same _ ((s.freeToken k).measure p held).sched) rfl
    have hwritten := quietUnlessUp_mapLaw.setSuspect d false
      (quietUnlessUp_mapLaw.writeSource d (some x) .cut hmeasured)
    exact (endPending hwritten d _).dispatchDue [d]

theorem applyForeign (d : Dest) (x : Source) (t : Byte) (b : Bool) :
    QuietUnlessUp (s.applyForeign d x t b) := by
  have hwritten := quietUnlessUp_mapLaw.setSuspect d false
    (quietUnlessUp_mapLaw.writeSource d (some x) .foreign hs)
  unfold State.applyForeign
  dsimp only
  split
  · exact hwritten
  · exact hwritten.of_same (raise_same _ _) rfl

theorem upReport (r : Report) : QuietUnlessUp (s.upReport r) := by
  unfold State.upReport
  split
  · split
    · exact hs.unmatch
    · split
      · exact hs.applyMatched _ _ _ _
      · exact (hs.freeToken _).applyForeign _ _ _ _
      · exact hs.applyForeign _ _ _ _
      · exact hs.unmatch.applyForeign _ _ _ _
  · exact hs.unmatch

theorem report (r : Report) : QuietUnlessUp (s.report r) := by
  unfold State.report
  split
  · exact hs
  · unfold State.surveyReport
    split
    · exact quietUnlessUp_mapLaw.setSuspect _ _ (quietUnlessUp_mapLaw.writeSource _ _ _ hs)
    · exact hs.unmatch
  · exact hs.upReport r

theorem endSurvey (a b : Nat) : QuietUnlessUp (s.endSurvey a b) := by
  unfold State.endSurvey
  split
  · exact hs
  · exact hs.unmatch
  · exact quietUnlessUp_of_up rfl

theorem matrixBody (body : List Byte) : QuietUnlessUp (s.matrixBody body) := by
  unfold State.matrixBody
  split
  · exact hs.report _
  · split
    · exact hs.endSurvey _ _
    · exact hs.unmatch

theorem matrixByte (b : Byte) : QuietUnlessUp (s.matrixByte b) := by
  have htaken := hs.withLink { s.link with receiver := (receiverTake s.link.receiver b).1 } rfl rfl rfl
  unfold State.matrixByte
  dsimp only
  split
  · exact htaken
  · exact htaken.unmatch
  · exact (htaken.matrixBody _).of_same (flushHigh_same _) rfl

theorem matrixGap : QuietUnlessUp s.matrixGap :=
  (hs.withLink { s.link with receiver := .hunting } rfl rfl rfl).unmatch

theorem endMatrixGap : QuietUnlessUp s.endMatrixGap := by
  unfold State.endMatrixGap
  split
  · exact hs.matrixGap
  · exact hs

theorem matrixBytes (bytes : List Byte) : QuietUnlessUp (s.matrixBytes bytes) := by
  unfold State.matrixBytes
  split
  · exact hs
  · exact foldl_keeps (fun b hs => hs.matrixByte b) bytes (hs.endMatrixGap.withLink _ rfl rfl rfl)

theorem wholeMessage {f : State → State} (hf : ∀ {u : State}, QuietUnlessUp u → QuietUnlessUp (f u))
    (τ : Nat) : QuietUnlessUp (s.wholeMessage τ f) := by
  unfold State.wholeMessage
  split
  · exact quietUnlessUp_mapLaw.event (fun hu => hf hu.endMatrixGap) τ hs
  · exact hs

end QuietUnlessUp

/-! ### A take arrives only while the link is UP (R16) -/

/-- The access check refuses a take while the link is not UP, if no earlier step has. -/
theorem up_of_accessCheck {s : State} {p : PanelNo} {d : Dest} {x : Source}
    (h : s.accessCheck p d (some x) = none) : s.link.state = .up := by
  rw [accessCheck_eq, Option.map_eq_none_iff, List.find?_eq_none] at h
  simpa using h (_, .matrixDown) (List.mem_cons_of_mem _ (List.mem_cons_of_mem _ List.mem_cons_self))

theorem arrive_link_state (s : State) (d : Dest) (n : NextTake) (pl : Placement) :
    (s.arrive d n pl).2.link.state = s.link.state := by
  unfold State.arrive
  split
  · rw [link_of_same (placeHeld_same s d n pl) (by simp)]
  · next p hp =>
    split
    · rw [link_of_same (placeHeld_same _ d n pl) (by simp), endPending_link hp]
      split <;> rfl
    · exact congrArg Link.state (link_of_same (endNext_same s d .superseded) (by simp) :)

theorem fireEntry_link_state (k : SlotNo) (owner : PanelNo) (pl : Placement) (acc : FireAccount × State)
    (e : Dest × Source) : (fireEntry k owner pl acc e).2.link.state = acc.2.link.state := by
  have harrive := arrive_link_state acc.2 e.1 ⟨e.2, owner, 0, some k⟩ pl
  unfold fireEntry
  dsimp only
  split
  · rfl
  · split <;> (next heq => rw [heq] at harrive; exact harrive)

theorem foldl_fireEntry_link_state (k : SlotNo) (owner : PanelNo) (pl : Placement)
    (l : List (Dest × Source)) (acc : FireAccount × State) :
    (l.foldl (fireEntry k owner pl) acc).2.link.state = acc.2.link.state := by
  induction l generalizing acc with
  | nil => rfl
  | cons e l ih => exact (ih _).trans (fireEntry_link_state k owner pl acc e)

namespace QuietUnlessUp

variable {s : State} (hs : QuietUnlessUp s)
include hs

theorem serveTake (o : Order) : QuietUnlessUp (Machine.serveTake o s).state := by
  unfold Machine.serveTake
  split
  · next d x p _ _ _ =>
    split
    · exact hs
    · next hc =>
      have harrive := (arrive_link_state s d ⟨x, p, o.ticket, none⟩ (s.placement (s.entry d).group)).trans
        (up_of_accessCheck hc)
      dsimp only
      split <;> rename_i heq <;> rw [heq] at harrive
      · exact quietUnlessUp_of_up harrive
      · exact (quietUnlessUp_of_up harrive).dispatchDue [d]
  · exact hs

theorem fire (k : SlotNo) : QuietUnlessUp (s.fire k).state := by
  unfold State.fire
  dsimp only
  split
  · exact hs
  · split
    · exact hs
    · next hup =>
      split
      · exact hs
      · have hfired := (foldl_fireEntry_link_state k (s.slot k).owner (s.placement (s.slot k).group)
          (s.slot k).entries (FireAccount.start, s)).trans (not_not.1 hup)
        exact dispatchDue (of_same (quietUnlessUp_of_up hfired) (setSlot_same _ k _) rfl) _

theorem serveSalvoFire (o : Order) : QuietUnlessUp (Machine.serveSalvoFire o s).state := by
  unfold Machine.serveSalvoFire
  split
  · exact hs
  · exact hs.fire _

/-! ### Trigger inputs -/

theorem edgeAct (r : Trigger) (rising : Bool) : QuietUnlessUp (s.edgeAct r rising).state := by
  unfold State.edgeAct
  split
  · exact hs.fire _
  · exact hs.of_same (recStart_same s _ _) rfl
  · exact hs.of_same (recStop_same s _ _) rfl
  · split
    · exact hs.of_same (recStart_same s _ _) rfl
    · exact hs.of_same (recStop_same s _ _) rfl
  · exact hs

theorem qualify (i : InputNo) : QuietUnlessUp (s.qualify i) := by
  have hacted := ((hs.of_same (setTrig_same s i { s.trig i with
    level := (s.trig i).raw, interval := none }) rfl).edgeAct { s.trig i with
      level := (s.trig i).raw, interval := none } (s.trig i).raw).of_same (flushHigh_same _) rfl
  unfold State.qualify
  dsimp only
  split
  · exact hacted.of_same (raise_same _ _) rfl
  · exact hacted

theorem startInterval (i : InputNo) : QuietUnlessUp (s.startInterval i) := by
  have hstarted := hs.of_same (setTrig_same s i { s.trig i with
    interval := some ⟨s.now, (s.trig i).q.toNat⟩ }) rfl
  unfold State.startInterval
  dsimp only
  split
  · exact hstarted.qualify i
  · exact hstarted

theorem rawChange (i : InputNo) (b : Bool) : QuietUnlessUp (s.rawChange i b) := by
  have hraw := hs.of_same (setTrig_same s i { s.trig i with raw := b }) rfl
  unfold State.rawChange
  dsimp only
  split
  · exact hraw.of_same (setTrig_same _ i _) rfl
  · split
    · exact hraw.startInterval i
    · exact hraw

/-! ### Reference groups -/

theorem handOn (b : Boundary) (order : FollowerOrder) : QuietUnlessUp (s.handOn b order) := by
  have ht {u : State} (hu : QuietUnlessUp u) := hu.takesAtBoundary b
  have hw {u : State} (hu : QuietUnlessUp u) := hu.of_same (wallsAtBoundary_same u b.group b.frame) rfl
  have hr {u : State} (hu : QuietUnlessUp u) := hu.of_same (recordersAtBoundary_same u b.group) rfl
  cases order
  · exact hr (hw (ht hs))
  · exact hw (hr (ht hs))
  · exact hr (ht (hw hs))
  · exact ht (hr (hw hs))
  · exact hw (ht (hr hs))
  · exact ht (hw (hr hs))

theorem boundary (g : Group) (time : Nat) (state : RefState) (p : Nat) (en : Bool) (k : Option RefKind)
    (order : FollowerOrder) : QuietUnlessUp (s.boundary g time state p en k order) := by
  unfold State.boundary
  dsimp only
  split
  · exact hs
  · exact ((hs.of_same (setGrp_same s g _) rfl).of_same (raiseRef_same _ g k) rfl).handOn _ order

theorem expireTolerance (g : Group) (order : FollowerOrder) : QuietUnlessUp (s.expireTolerance g order) :=
  (hs.of_same (clock_same s _) rfl).boundary g _ _ _ _ _ order

theorem freewheel (g : Group) (order : FollowerOrder) : QuietUnlessUp (s.freewheel g order) :=
  (hs.of_same (clock_same s _) rfl).boundary g _ _ _ _ _ order

theorem edge (g : Group) (order : FollowerOrder) : QuietUnlessUp (s.edge g order) := by
  unfold State.edge State.edgeLocked State.recapture
  dsimp only
  split
  · exact hs
  · split <;> exact hs.boundary g _ _ _ _ _ order
  · split
    · exact hs.boundary g _ _ _ _ _ order
    · exact (hs.of_same (setGrp_same s g _) rfl).of_same (raiseRef_same _ g _) rfl

theorem expireBefore (τ : Nat) (g : Group) (order : FollowerOrder) :
    QuietUnlessUp (s.expireBefore τ g order) := by
  unfold State.expireBefore
  dsimp only
  split
  · exact quietUnlessUp_mapLaw.event (fun hu => hu.expireTolerance g order) _ hs
  · exact hs

theorem serveRefSet (order : FollowerOrder) (o : Order) :
    QuietUnlessUp (Machine.serveRefSet order o s).state := by
  have hgrp (g : Group) (r : GroupRec) := hs.of_same (setGrp_same s g r) rfl
  unfold Machine.serveRefSet
  split
  · split
    · exact boundary (hgrp _ _) _ _ _ _ _ _ order
    · exact hgrp _ _
  · exact hs

/-! ### The orders that write entries, and the block resets -/

theorem serveDestSet (o : Order) : QuietUnlessUp (Machine.serveDestSet o s).state := by
  unfold Machine.serveDestSet
  split
  · next d c g _ _ _ =>
    have hset := quietUnlessUp_mapLaw.entry s d { s.entry d with cls := c, group := g } rfl rfl rfl hs
    dsimp only
    split
    · exact hs
    · split
      · exact hset
      · exact hset.of_same (tallyClass_same _ _ _ _) rfl
  · exact hs

theorem serveLock (o : Order) : QuietUnlessUp (Machine.serveLock o s).state := by
  unfold Machine.serveLock
  split
  · split
    · exact hs
    · exact quietUnlessUp_mapLaw.setLock _ _ hs
  · exact hs

theorem serveUnlock (o : Order) : QuietUnlessUp (Machine.serveUnlock o s).state := by
  unfold Machine.serveUnlock
  split
  · split
    · exact hs
    · split
      · exact quietUnlessUp_mapLaw.setLock _ _ hs
      · exact hs
  · exact hs

theorem serveProtect (o : Order) : QuietUnlessUp (Machine.serveProtect o s).state := by
  unfold Machine.serveProtect
  split
  · split
    · exact hs
    · exact quietUnlessUp_mapLaw.setProtect _ _ hs
  · exact hs

theorem serveTileSet (o : Order) : QuietUnlessUp (Machine.serveTileSet o s).state := by
  unfold Machine.serveTileSet
  split
  · next w i k _ _ _ =>
    have hlink : (s.writeTile w i k).link = s.link := link_of_same (writeTile_same s w i k) (by simp)
    split
    · exact hs
    · exact QuietUnlessUp.of_same (hs.of_takes (by rw [hlink]) (writeTile_takes s w i k) (by rw [hlink])
        (by rw [hlink])) (queueTile_same _ _) rfl
  · exact hs

theorem resetBlock (b : Block) : QuietUnlessUp (s.resetBlock b) := by
  cases b with
  | link => exact quietUnlessUp_of_calm hs.calm_resetLink
  | salvos =>
    intro hn
    obtain ⟨hfree, hrest⟩ := hs hn
    refine ⟨fun d => ?_, hrest⟩
    have hentry : (s.resetBlock .salvos).entry d = (s.entry d).untagged := mapEntries_entry s _ d
    rw [hentry]
    exact ⟨congrArg (Option.map _) (hfree d).1, congrArg (Option.map _) (hfree d).2⟩
  | walls w =>
    have hlink : (s.resetWalls w).link = s.link := link_of_same (resetWalls_same s w) (by simp)
    refine hs.of_takes (by rw [State.resetBlock, hlink]) (fun d => ?_) (by rw [State.resetBlock, hlink])
      (by rw [State.resetBlock, hlink])
    rw [State.resetBlock, resetWalls_eq, foldl_resetWall_entry]
    exact ⟨rfl, rfl⟩
  | recorders => exact hs.of_same (resetRecorders_same s) rfl
  | panels => exact hs.of_takes rfl (fun _ => ⟨rfl, rfl⟩) rfl rfl

theorem serveBlock (τ : Nat) (these : Block → Bool) : QuietUnlessUp (s.serveBlock τ these) := by
  refine quietUnlessUp_mapLaw.serveIf (fun o hu => ifFormed_keeps (fun o hu => ?_) o hu) τ _ hs
  unfold serveBlockReset
  split
  · exact hu
  · exact hu.resetBlock _

end QuietUnlessUp

/-! ### The resets of the part -/

/-- From a part without takes the release of the pin leaves at most a survey under way. -/
theorem quietUnlessUp_releaseReset {s : State} (hs : s.calm) : QuietUnlessUp s.releaseReset := by
  have hbegun : State.calm { s with now := 0, pins := { s.pins with reset := false } } := hs
  have hread : (State.readCarrier { s with now := 0, pins := { s.pins with reset := false } }).calm := by
    unfold State.readCarrier
    split
    · exact calm_startSurvey hbegun
    · exact hbegun
  refine foldl_keeps (fun i hu => ?_) _ ((quietUnlessUp_of_calm hread).of_same
    (SameBut.foldl issueHalt_same _ _) rfl)
  unfold State.readRaw
  split
  · exact hu.startInterval i
  · exact hu

theorem quietUnlessUp_deviceReset (s : State) : QuietUnlessUp s.deviceReset :=
  quietUnlessUp_releaseReset (calm_assertReset _)

/-! ### Every command -/

namespace QuietUnlessUp

variable {s t : State} (hs : QuietUnlessUp s)
include hs

/-- A command that writes neither the map nor the link. -/
theorem exec_of_footprint {c : Instr} (ht : exec c s = .next t)
    (hp : (footprint c).all Part.takeless = true) : QuietUnlessUp t := by
  obtain ⟨u, hu, hsame⟩ := exec_same c s
  exact next_keeps (hu.symm.trans ht) (hs.of_same hsame hp)

theorem execControlTxComplete {τ : Nat} (ht : Machine.execControlTxComplete τ s = .next t) :
    QuietUnlessUp t := by
  unfold Machine.execControlTxComplete at ht
  split at ht
  · exact next_keeps ht hs
  · split at ht
    · exact next_keeps ht (hs.of_same (begin_same s) rfl)
    · split at ht
      · exact next_keeps ht (quietUnlessUp_deviceReset s)
      · exact next_keeps ht ((hs.of_same (clock_same s τ) rfl).of_same (begin_same _) rfl)

theorem execOverdueEntry {d : Dest} (ht : Machine.execOverdueEntry d s = .next t) : QuietUnlessUp t := by
  unfold Machine.execOverdueEntry at ht
  split at ht
  · exact next_keeps ht hs
  · next p hp =>
    split at ht
    · refine next_keeps ht ?_
      unfold State.event
      split
      · exact hs
      · exact hs.of_pending hp (congrArg Link.state (link_of_same (flushHigh_same _) (by simp) :))
    · exact next_keeps ht hs

theorem execTakeTimedOut {d : Dest} (ht : Machine.execTakeTimedOut d s = .next t) : QuietUnlessUp t := by
  unfold Machine.execTakeTimedOut at ht
  split at ht
  · exact next_keeps ht hs
  · next p hp =>
    split at ht
    · next hdue =>
      refine next_keeps ht ?_
      unfold State.event
      split
      · exact hs
      · exact QuietUnlessUp.of_same (((hs.of_same (clock_same s s.now) rfl).timeOut hp hdue.1).dispatchDue [d])
          (flushHigh_same _) rfl
    · exact next_keeps ht hs

theorem execCarrierGain {τ : Nat} (ht : Machine.execCarrierGain τ s = .next t) : QuietUnlessUp t := by
  unfold Machine.execCarrierGain at ht
  split at ht
  · exact next_keeps ht hs
  · refine next_keeps ht (quietUnlessUp_mapLaw.event (fun hu => ?_) τ (hs.of_same (withPins_same s _) rfl))
    split
    · next hdown => exact quietUnlessUp_of_calm (calm_startSurvey (hu (by simp [hdown])))
    · exact hu

theorem execCarrierLoss {τ : Nat} (ht : Machine.execCarrierLoss τ s = .next t) : QuietUnlessUp t := by
  unfold Machine.execCarrierLoss at ht
  split at ht
  · have hlost := (hs.of_same (withPins_same s { s.pins with carrier := false }) rfl).withLink
      { s.link with line := none } rfl rfl rfl
    refine next_keeps ht (quietUnlessUp_mapLaw.event (fun {u} hu => ?_) τ hlost)
    exact quietUnlessUp_of_calm ((hu.withLink { u.link with receiver := .hunting, line := none }
      rfl rfl rfl).calm_linkDown .carrierLost)
  · exact next_keeps ht hs

/-- Every command keeps the law, in a part without takes while the pin is asserted. -/
theorem exec (hheld : s.pins.reset = true → s.calm) {c : Instr} (ht : Machine.exec c s = .next t) :
    QuietUnlessUp t := by
  have hserve {act : Order → State → Answer} {τ : Nat} {code : Byte}
      (ha : ∀ {u : State} o, QuietUnlessUp u → QuietUnlessUp (act o u).state) :
      QuietUnlessUp (s.serve τ code act) := quietUnlessUp_mapLaw.serve ha τ code hs
  have hevent {f : State → State} {τ : Nat} (hf : ∀ {u : State}, QuietUnlessUp u → QuietUnlessUp (f u)) :
      QuietUnlessUp (s.event τ f) := quietUnlessUp_mapLaw.event hf τ hs
  cases c with
  | resetPinAssert =>
    change execResetPinAssert s = _ at ht
    unfold execResetPinAssert at ht
    split at ht
    · exact next_keeps ht hs
    · exact next_keeps ht (quietUnlessUp_of_calm (calm_assertReset s))
  | resetPinRelease =>
    change execResetPinRelease s = _ at ht
    unfold execResetPinRelease at ht
    split at ht
    · next hr => exact next_keeps ht (quietUnlessUp_releaseReset (hheld hr))
    · exact next_keeps ht hs
  | take τ => exact next_keeps ht (hserve fun o hu => hu.serveTake o)
  | destSet τ => exact next_keeps ht (hserve fun o hu => hu.serveDestSet o)
  | lock τ => exact next_keeps ht (hserve fun o hu => hu.serveLock o)
  | unlock τ => exact next_keeps ht (hserve fun o hu => hu.serveUnlock o)
  | protect τ => exact next_keeps ht (hserve fun o hu => hu.serveProtect o)
  | refSet τ order => exact next_keeps ht (hserve fun o hu => hu.serveRefSet order o)
  | refEdge τ g order =>
    exact next_keeps ht (quietUnlessUp_mapLaw.event (fun hu => hu.edge g order) τ
      (hs.expireBefore τ g order))
  | toleranceExpiry g order =>
    change execToleranceExpiry g order s = _ at ht
    unfold execToleranceExpiry at ht
    split at ht
    · exact next_keeps ht (hevent fun hu => hu.expireTolerance g order)
    · exact next_keeps ht hs
  | freewheelBoundary g order =>
    change execFreewheelBoundary g order s = _ at ht
    unfold execFreewheelBoundary at ht
    split at ht
    · exact next_keeps ht (hevent fun hu => hu.freewheel g order)
    · exact next_keeps ht hs
  | overdueEntry d => exact hs.execOverdueEntry ht
  | takeTimedOut d => exact hs.execTakeTimedOut ht
  | takeFallsDue τ => exact next_keeps ht (hevent fun hu => hu.dispatchDue _)
  | carrierGain τ => exact hs.execCarrierGain ht
  | carrierLoss τ => exact hs.execCarrierLoss ht
  | routeReport τ dest source token held survey =>
    exact next_keeps ht (hs.wholeMessage (fun hu => hu.report _) τ)
  | surveyEnd τ dests sources => exact next_keeps ht (hs.wholeMessage (fun hu => hu.endSurvey _ _) τ)
  | matrixBadFrame τ bytes => exact next_keeps ht (hevent fun hu => hu.matrixBytes bytes)
  | matrixFrameGapTimeout =>
    change execMatrixFrameGapTimeout s = _ at ht
    unfold execMatrixFrameGapTimeout at ht
    split at ht
    · exact next_keeps ht hs
    · exact next_keeps ht (hevent fun hu => hu.matrixGap)
  | matrixTxComplete τ =>
    change execMatrixTxComplete τ s = _ at ht
    unfold execMatrixTxComplete at ht
    split at ht
    · exact next_keeps ht hs
    · have hclock : QuietUnlessUp (if s.pins.reset then s else s.clock τ) := by
        split
        · exact hs
        · exact hs.of_same (clock_same s τ) rfl
      exact next_keeps ht (hclock.withLink _ (Link.begin_steady _).1 (Link.begin_pool _)
        (Link.begin_waiting _))
  | salvoFire τ => exact next_keeps ht (hserve fun o hu => hu.serveSalvoFire o)
  | triggerRawChange τ i b =>
    change execTriggerRawChange τ i b s = _ at ht
    unfold execTriggerRawChange at ht
    split at ht
    · exact next_keeps ht hs
    · split at ht
      · exact next_keeps ht (hs.of_same (setTrig_same s i _) rfl)
      · exact next_keeps ht (hevent fun hu => hu.rawChange i b)
  | qualifiedEdge i =>
    change execQualifiedEdge i s = _ at ht
    unfold execQualifiedEdge at ht
    split at ht
    · exact next_keeps ht hs
    · exact next_keeps ht (hevent fun hu => hu.qualify i)
  | tileSet τ => exact next_keeps ht (hserve fun o hu => hu.serveTileSet o)
  | controlTxComplete τ => exact hs.execControlTxComplete ht
  | blockResetLink τ => exact next_keeps ht (hs.serveBlock τ _)
  | blockResetSalvos τ => exact next_keeps ht (hs.serveBlock τ _)
  | blockResetWalls τ => exact next_keeps ht (hs.serveBlock τ _)
  | blockResetRecorders τ => exact next_keeps ht (hs.serveBlock τ _)
  | blockResetPanels τ => exact next_keeps ht (hs.serveBlock τ _)
  | deviceResetTakesEffect =>
    change execDeviceResetTakesEffect s = _ at ht
    unfold execDeviceResetTakesEffect at ht
    split at ht
    · exact next_keeps ht (quietUnlessUp_deviceReset s)
    · exact next_keeps ht hs
  | _ => exact hs.exec_of_footprint ht rfl

end QuietUnlessUp

/-- Settles O58: a take arrives, and a token is lent, only while the link is UP, and whatever leaves UP ends
every take and frees every token. -/
theorem everyStepKeepsTheQuietOfALinkThatIsNotUp :
    Obligations.EveryStepKeepsTheQuietOfALinkThatIsNotUp := by
  unfold Obligations.EveryStepKeepsTheQuietOfALinkThatIsNotUp
  intro s t hheld hs ht
  unfold step at ht
  split at ht
  · exact next_keeps ht hs
  · next c cs _ =>
    exact QuietUnlessUp.exec (s := { s with pending := cs }) hs (fun hr => (hheld hr).calm) ht

end Sys2Proof.Machine
end

section
/-! O42: the end of a transmission on the matrix, recorder and wall lines (R67, R137, R128). -/

namespace Sys2Proof.Machine

/-- An idle matrix line takes the oldest message that waits, if one does. -/
theorem Link.begin_of_idle (l : Link) : Link.begin { l with line := none }
    = { l with line := l.queue.head?, queue := l.queue.tail } := by
  obtain ⟨state, pool, waiting, unmatched, queue, line, receiver, lastByte⟩ := l
  cases queue <;> rfl

/-- An idle recorder line takes the oldest command that waits, if one does. -/
theorem Recorder.begin_of_idle (r : Recorder) : Recorder.begin { r with line := none }
    = { r with line := r.queue.head?, queue := r.queue.tail } := by
  obtain ⟨channels, queue, line, high⟩ := r
  cases queue <;> rfl

section
variable {s : State} (τ : Nat) (hr : s.pins.reset = false)
include hr

theorem exec_matrixTxComplete (hl : s.link.line ≠ none) : exec (.matrixTxComplete τ) s = .next
    { s.clock τ with link := Link.begin { s.link with line := none } } := by
  change execMatrixTxComplete τ s = _
  simp [execMatrixTxComplete, hl, hr, State.clock]

theorem exec_recorderTxComplete (hl : s.recorder.line ≠ none) : exec (.recorderTxComplete τ) s = .next
    { s.clock τ with recorder := Recorder.begin { s.recorder with line := none } } := by
  change execRecorderTxComplete τ s = _
  simp [execRecorderTxComplete, hl, hr, State.clock]

theorem exec_wallRecordTxComplete {w : WallNo} (hl : (s.wall w).line ≠ []) :
    exec (.wallRecordTxComplete τ w) s = .next
      ((s.clock τ).setWall w { s.wall w with line := (s.wall w).line.tail }) := by
  change execWallRecordTxComplete τ w s = _
  simp [execWallRecordTxComplete, hl, hr]

end

/-- Settles O42: the line falls idle, and takes what waits. -/
theorem linesSendOneThingAtATime : Obligations.LinesSendOneThingAtATime := by
  unfold Obligations.LinesSendOneThingAtATime
  intro τ s hr
  refine ⟨fun hl => ?_, fun hl => ?_, fun w hl => ?_⟩
  · rw [exec_matrixTxComplete τ hr hl, Link.begin_of_idle]
    rfl
  · rw [exec_recorderTxComplete τ hr hl, Recorder.begin_of_idle]
    rfl
  · exact exec_wallRecordTxComplete τ hr hl

end Sys2Proof.Machine
end

section
/-! O39 to O41: the rows of the router's messages (R68). -/

namespace Sys2Proof.Machine

section
variable {s : State} (τ : Nat) (hr : s.pins.reset = false) (hrec : s.link.receiver = .hunting)
include hr hrec

/-- With no frame under reception a whole message is an event of its own. -/
theorem wholeMessage_hunting (act : State → State) : s.wholeMessage τ act = (act (s.clock τ)).paid := by
  rw [State.wholeMessage, if_pos (.inl hrec), event_eq_paid hr, endMatrixGap_hunting (s := s.clock τ) hrec]

theorem exec_routeReport (dest source : Word16) (token : Byte) (held : Word16) (survey : Byte) :
    exec (.routeReport τ dest source token held survey) s = .next
      ((s.clock τ).report ⟨dest.toNat, source.toNat, token, held.toNat, survey != 0⟩).paid :=
  congrArg Host.Outcome.next (wholeMessage_hunting τ hr hrec _)

theorem exec_surveyEnd (dests sources : Word16) : exec (.surveyEnd τ dests sources) s = .next
    ((s.clock τ).endSurvey dests.toNat sources.toNat).paid :=
  congrArg Host.Outcome.next (wholeMessage_hunting τ hr hrec _)

end

end Sys2Proof.Machine
end

section
/-! O41: the frames of the matrix line (R68, R153, R167, R174). -/

namespace Sys2Proof.Machine

/-! ### Bytes that complete no frame -/

/-- A frame but for its last byte is gathered by whatever takes bytes as the receiver says and keeps
nothing else of them. -/
theorem foldl_gather {α : Type} {take : α → Byte → α} {at_ : Receiver → α}
    (htake : ∀ r b r', receiverTake r b = (r', .nothing) → take (at_ r) b = at_ r') {hi lo : Byte}
    (hr : 6 ≤ spelled hi lo ∧ spelled hi lo ≤ 1024) (bs rest : List Byte)
    (hl : rest.length + bs.length < spelled hi lo + 2) :
    bs.foldl take (at_ (.taking (hi :: lo :: rest))) = at_ (.taking (hi :: lo :: (rest ++ bs))) := by
  induction bs generalizing rest with
  | nil => rw [List.foldl_nil, List.append_nil]
  | cons b bs ih =>
    simp only [List.length_cons] at hl
    rw [List.foldl_cons, htake _ b _ (receiverTake_body hr (by omega)),
      ih (rest ++ [b]) (by simp only [List.length_append, List.length_singleton]; omega),
      List.append_assoc, List.singleton_append]

/-! ### The matrix receiver -/

/-- The state with the matrix receiver in a state of its own. -/
def State.receiving (s : State) (r : Receiver) : State := { s with link := { s.link with receiver := r } }

theorem receiving_hunting {s : State} (h : s.link.receiver = .hunting) : s.receiving .hunting = s := by
  rw [State.receiving, ← h]

section
variable {s : State} {r r' : Receiver} {b : Byte}

theorem matrixByte_nothing (h : receiverTake r b = (r', .nothing)) :
    (s.receiving r).matrixByte b = s.receiving r' := by
  have htake : receiverTake (s.receiving r).link.receiver b = _ := h
  rw [State.matrixByte, htake]
  rfl

theorem matrixByte_bad (h : receiverTake r b = (r', .bad)) :
    (s.receiving r).matrixByte b = (s.receiving r').unmatch := by
  have htake : receiverTake (s.receiving r).link.receiver b = _ := h
  rw [State.matrixByte, htake]
  rfl

theorem matrixByte_body {body : List Byte} (h : receiverTake r b = (r', .body body)) :
    (s.receiving r).matrixByte b = ((s.receiving r').matrixBody body).paid := by
  have htake : receiverTake (s.receiving r).link.receiver b = _ := h
  rw [State.matrixByte, htake]
  exact flushHigh_eq_paid _

/-- A length outside the range is counted, and the receiver hunts again. -/
theorem foldl_matrixByte_range (hs : s.link.receiver = .hunting) {n : Nat} (hn : n < 65536)
    (hr : ¬ (6 ≤ n ∧ n ≤ 1024)) : (0xB4#8 :: be16 n).foldl State.matrixByte s = s.unmatch := by
  rw [← spelled_be16 hn] at hr
  conv_lhs => rw [← receiving_hunting hs]
  rw [be16, List.foldl_cons, List.foldl_cons, List.foldl_cons, List.foldl_nil,
    matrixByte_nothing receiverTake_lead, matrixByte_nothing (receiverTake_high _),
    matrixByte_bad (receiverTake_range hr), receiving_hunting hs]

/-- A whole frame, with whatever check: its body is judged when the check is right, and it is counted
when the check is wrong. -/
theorem foldl_matrixByte_frame (hs : s.link.receiver = .hunting) {body : List Byte}
    (hb : 6 ≤ body.length ∧ body.length ≤ 1024) (c0 c1 : Byte) :
    (0xB4#8 :: (be16 body.length ++ body ++ [c0, c1])).foldl State.matrixByte s
      = if crc (be16 body.length ++ body) = c0 ++ c1 then (s.matrixBody body).paid else s.unmatch := by
  have hspelled := spelled_be16 (n := body.length) (by omega)
  have hr := hb
  rw [← hspelled] at hr
  have hsplit : be16 body.length ++ body ++ [c0, c1]
      = BitVec.ofNat 8 (body.length / 256) :: BitVec.ofNat 8 body.length :: ((body ++ [c0]) ++ [c1]) := by
    simp [be16]
  have hlast := receiverTake_last (c0 := c0) (c1 := c1) hr hspelled.symm
  have hgather := foldl_gather (take := State.matrixByte) (at_ := s.receiving)
    (fun _ _ _ h => matrixByte_nothing h) hr (body ++ [c0]) [] (by simp [hspelled])
  conv_lhs => rw [← receiving_hunting hs]
  rw [hsplit, List.foldl_cons, List.foldl_cons, List.foldl_cons, matrixByte_nothing receiverTake_lead,
    matrixByte_nothing (receiverTake_high _), matrixByte_nothing (receiverTake_low hr),
    List.foldl_append, hgather, List.foldl_cons, List.foldl_nil, List.nil_append]
  change _ = if crc (BitVec.ofNat 8 (body.length / 256) :: BitVec.ofNat 8 body.length :: body) = _
    then _ else _
  split
  · next hc => rw [matrixByte_body (by rw [hlast, if_pos hc]), receiving_hunting hs]
  · next hc => rw [matrixByte_bad (by rw [hlast, if_neg hc]), receiving_hunting hs]

end

/-! ### The row -/

/-- A debt that is paid is paid once. -/
theorem paid_paid (s : State) : s.paid.paid = s.paid := paid_of_owed rfl

/-- The state in which bytes that have arrived on the matrix line are judged. -/
def State.bytesArrived (s : State) (τ : Nat) : State :=
  { s.clock τ with link := { s.link with lastByte := max s.now τ } }

section
variable {s : State} (τ : Nat) (hr : s.pins.reset = false)
include hr

theorem exec_matrixBadFrame_down (ho : s.recorder.high = []) (hl : s.link.state = .down)
    (bytes : List Byte) : exec (.matrixBadFrame τ bytes) s = .next (s.clock τ) := by
  refine congrArg Host.Outcome.next ((event_eq_paid hr τ _).trans ?_)
  have hdown : (s.clock τ).matrixBytes bytes = s.clock τ := if_pos hl
  rw [hdown]
  exact paid_of_owed ho

variable (hrec : s.link.receiver = .hunting) (hl : s.link.state ≠ .down)
include hrec hl

theorem exec_matrixBadFrame (bytes : List Byte) : exec (.matrixBadFrame τ bytes) s
    = .next (bytes.foldl State.matrixByte (s.bytesArrived τ)).paid := by
  refine congrArg Host.Outcome.next ((event_eq_paid hr τ _).trans (congrArg State.paid ?_))
  refine (if_neg hl).trans ?_
  dsimp only
  rw [endMatrixGap_hunting (s := s.clock τ) hrec]
  rfl

/-- Bytes that come to nothing but a count. -/
theorem exec_matrixBadFrame_counted (ho : s.recorder.high = []) {bytes : List Byte}
    (h : bytes.foldl State.matrixByte (s.bytesArrived τ) = (s.bytesArrived τ).unmatch) :
    exec (.matrixBadFrame τ bytes) s = .next (s.bytesArrived τ).unmatch := by
  rw [exec_matrixBadFrame τ hr hrec hl, h]
  exact congrArg Host.Outcome.next (paid_of_owed ho)

/-- The frame of a body in range comes to what the body comes to. -/
theorem exec_matrixBadFrame_frame {body : List Byte} (hb : 6 ≤ body.length ∧ body.length ≤ 1024) :
    exec (.matrixBadFrame τ (frameOf body)) s = .next ((s.bytesArrived τ).matrixBody body).paid := by
  rw [exec_matrixBadFrame τ hr hrec hl]
  have hframe := foldl_matrixByte_frame (s := s.bytesArrived τ) hrec hb
    (BitVec.ofNat 8 ((crc (be16 body.length ++ body)).toNat / 256))
    (BitVec.ofNat 8 (crc (be16 body.length ++ body)).toNat)
  rw [if_pos (be16_append _).symm] at hframe
  exact congrArg Host.Outcome.next ((congrArg State.paid hframe).trans (paid_paid _))

end

/-! ### What a body comes to (R174) -/

theorem matrixBody_unknown {s : State} {body : List Byte}
    (hreport : ¬ (body.head? = some 0x81 ∧ body.length = 9))
    (hend : ¬ (body.head? = some 0x82 ∧ body.length = 6)) (hb : 6 ≤ body.length) :
    s.matrixBody body = s.unmatch := by
  obtain ⟨b, bs, rfl⟩ := List.exists_cons_of_length_pos (l := body) (by omega)
  rw [List.head?_cons, Option.some_inj] at hreport hend
  exact (if_neg hreport).trans (if_neg hend)

theorem read16_word (w : Word16) :
    (BitVec.ofNat 8 (w.toNat / 256)).toNat * 256 + (BitVec.ofNat 8 w.toNat).toNat = w.toNat :=
  spelled_be16 w.isLt

theorem read8_flag (b : Byte) : (b.toNat != 0) = (b != 0) := by
  rw [Bool.eq_iff_iff, bne_iff_ne, bne_iff_ne, ne_eq, ne_eq, BitVec.toNat_eq]
  rfl

theorem matrixBody_report (s : State) (dest source held : Word16) (token survey : Byte) :
    s.matrixBody ([0x81, token] ++ be16 dest.toNat ++ be16 source.toNat ++ be16 held.toNat ++ [survey])
      = s.report ⟨dest.toNat, source.toNat, token, held.toNat, survey != 0⟩ := by
  refine (if_pos ⟨rfl, rfl⟩).trans (congrArg s.report ?_)
  rw [Report.mk.injEq]
  exact ⟨read16_word dest, read16_word source, rfl, read16_word held, read8_flag survey⟩

theorem matrixBody_surveyEnd (s : State) (dests sources : Word16) (token : Byte) :
    s.matrixBody ([0x82, token] ++ be16 dests.toNat ++ be16 sources.toNat)
      = s.endSurvey dests.toNat sources.toNat := by
  have hcode : byteAt ([0x82, token] ++ be16 dests.toNat ++ be16 sources.toNat) 0 = 0x82 := rfl
  rw [State.matrixBody, hcode, if_neg (fun h => absurd h.1 (by decide)), if_pos ⟨rfl, rfl⟩]
  exact congrArg₂ s.endSurvey (read16_word dests) (read16_word sources)

/-- Settles O41. -/
theorem matrixFrameIsJudged : Obligations.MatrixFrameIsJudged := by
  unfold Obligations.MatrixFrameIsJudged
  intro τ s bytes hr ho hrec
  refine ⟨fun hl => exec_matrixBadFrame_down τ hr ho hl bytes, fun hl hbad => ?_,
    fun hl dest source token held survey hbytes => ?_, fun hl dests sources token hbytes => ?_⟩
  · obtain ⟨n, hn, hrange, rfl⟩ | ⟨body, c, h6, hmax, hc, hne, rfl⟩ | ⟨body, h6, hmax, rfl, hreport, hend⟩ :=
      hbad
    · exact exec_matrixBadFrame_counted τ hr hrec hl ho
        (foldl_matrixByte_range (s := s.bytesArrived τ) hrec hn hrange)
    · have hcheck : crc (be16 body.length ++ body) ≠ BitVec.ofNat 8 (c / 256) ++ BitVec.ofNat 8 c := by
        have hword := be16_append (BitVec.ofNat 16 c)
        rw [BitVec.toNat_ofNat, Nat.mod_eq_of_lt hc] at hword
        rw [hword]
        exact fun h => hne (by rw [h, BitVec.toNat_ofNat, Nat.mod_eq_of_lt hc])
      exact exec_matrixBadFrame_counted τ hr hrec hl ho
        ((foldl_matrixByte_frame (s := s.bytesArrived τ) hrec ⟨h6, hmax⟩ _ _).trans (if_neg hcheck))
    · rw [exec_matrixBadFrame_frame τ hr hrec hl ⟨h6, hmax⟩, matrixBody_unknown hreport hend h6]
      exact congrArg Host.Outcome.next (paid_of_owed ho)
  · rw [hbytes, exec_matrixBadFrame_frame τ hr hrec hl (by simp [be16]), matrixBody_report]
    exact (exec_routeReport (s := { s with link := { s.link with lastByte := max s.now τ } }) τ hr hrec
      dest source token held survey).symm
  · rw [hbytes, exec_matrixBadFrame_frame τ hr hrec hl (by simp [be16]), matrixBody_surveyEnd]
    exact (exec_surveyEnd (s := { s with link := { s.link with lastByte := max s.now τ } }) τ hr hrec
      dests sources).symm

end Sys2Proof.Machine
end

section
/-! O37: what is reported while an order is served is reported as if it were not (R157). -/

namespace Sys2Proof.Machine

/-- A notice does not read which order is served. -/
theorem raise_serving (c : Control) (x : Option Order) (n : Notice) :
    Control.raise { c with serving := x } n = { c.raise n with serving := x } := by
  obtain ⟨receiver, lastByte, orders, serving, replies, notices, line, enables, discards, lost, resetDue⟩ := c
  unfold Control.raise
  dsimp only
  split
  · split
    · cases line <;> cases replies <;> cases notices <;> rfl
    · rfl
  · rfl

section
variable (s : State) (τ : Nat) (o : Order)

theorem atDesk_raise (n : Notice) : (s.atDesk τ o).raise n = (s.raise n).atDesk τ o :=
  congrArg (fun c => { s with now := max s.now τ, control := c }) (raise_serving s.control (some o) n)

theorem atDesk_accountTake (k : SlotNo) (r : TakeResult) (deferred : Bool) :
    (s.atDesk τ o).accountTake k r deferred = (s.accountTake k r deferred).atDesk τ o := by
  have hslot : (s.atDesk τ o).slot k = s.slot k := rfl
  unfold State.accountTake
  dsimp only
  rw [hslot]
  split
  · exact atDesk_raise (s.setSlot k _) τ o _
  · rfl

theorem atDesk_reportTake (d : Dest) (ticket : Word16) (tag : Option SlotNo) (r : TakeResult)
    (deferred : Bool) : (s.atDesk τ o).reportTake d ticket tag r deferred
      = (s.reportTake d ticket tag r deferred).atDesk τ o := by
  unfold State.reportTake
  split
  · exact atDesk_raise s τ o _
  · split
    · exact atDesk_accountTake s τ o _ r deferred
    · rfl

theorem atDesk_reportTakes (d : Dest) (r : TakeResult) (both : Bool) :
    (s.atDesk τ o).reportTakes d r both = (s.reportTakes d r both).atDesk τ o := by
  have hentry : (s.atDesk τ o).entry d = s.entry d := rfl
  unfold State.reportTakes
  rw [hentry]
  cases (s.entry d).pending <;> cases (s.entry d).next <;> cases both <;>
    simp only [atDesk_reportTake]

theorem atDesk_foldl_reportTakes (l : List Dest) (r : TakeResult) (both : Bool) :
    l.foldl (fun v d => v.reportTakes d r both) (s.atDesk τ o)
      = (l.foldl (fun v d => v.reportTakes d r both) s).atDesk τ o := by
  induction l generalizing s with
  | nil => rfl
  | cons d l ih => rw [List.foldl_cons, atDesk_reportTakes, ih, List.foldl_cons]

end

end Sys2Proof.Machine
end

section
/-! O37: the LINK block reset (R73). -/

namespace Sys2Proof.Machine

/-! ### What the reset reports -/

/-- LINK_STATE has been raised for the way from `v` to `w`, with the declared counts as they stand (R74). -/
def State.linkTold (s : State) (w v : LinkState) (k : LinkCause) : State :=
  s.raise (linkNotice w v k s.map.dests s.map.sources)

/-- The reports of a departure to DOWN: LINK_STATE, and the takes that end CANCELLED where the link was
UP (R72, R62). -/
def State.downTold (s : State) : State :=
  let u := if s.link.state = .down then s else s.linkTold .down s.link.state .blockReset
  if s.link.state = .up then (List.finRange 512).foldl (fun v d => v.reportTakes d .cancelled true) u else u

/-- The reports of a LINK block reset: those of the departure, and that of the survey that starts. -/
def State.resetTold (s : State) : State :=
  if s.pins.carrier then
    s.downTold.raise (linkNotice .surveying .down .carrierGained s.map.dests s.map.sources)
  else s.downTold

section
variable (s : State)

theorem atDesk_resetTold (τ : Nat) (o : Order) :
    (s.atDesk τ o).resetTold = s.resetTold.atDesk τ o := by
  have hdown : (s.atDesk τ o).downTold = s.downTold.atDesk τ o := by
    have hlink : (s.atDesk τ o).link = s.link := rfl
    have htold (k : LinkCause) : (s.atDesk τ o).linkTold .down s.link.state k
        = (s.linkTold .down s.link.state k).atDesk τ o := atDesk_raise s τ o _
    simp only [State.downTold, hlink, htold]
    split <;> split <;> simp only [atDesk_foldl_reportTakes]
  have hcarrier : (s.atDesk τ o).pins = s.pins := rfl
  have hmap : (s.atDesk τ o).map = s.map := rfl
  simp only [State.resetTold, hdown, hcarrier, hmap, atDesk_raise]
  split <;> rfl

/-! ### The way to DOWN -/

/-- The link has gone to DOWN, with the cause BLOCK_RESET. -/
structure LinkDowned (s t : State) : Prop where
  same     : SameBut [.control, .map, .walls, .salvos, .link] s t
  accounts : t.accounts = s.downTold.accounts
  link     : t.link = { s.link with
    state   := .down
    queue   := if s.link.state = .down then s.link.queue else []
    pool    := if s.link.state = .up then Vector.replicate 255 .free else s.link.pool
    waiting := if s.link.state = .up then [] else s.link.waiting }
  counts   : t.map.dests = s.map.dests ∧ t.map.sources = s.map.sources
  stays    : s.link.state ≠ .up → t.map = s.map ∧ t.walls = s.walls
  departs  : s.link.state = .up →
    (∀ d, t.entry d = { s.entry d with pending := none, next := none }) ∧ TilesOfTakesQueued s t

variable {s}

theorem linkDown_down (h : s.link.state = .down) : LinkDowned s (s.linkDown .blockReset) := by
  have hself : s.linkDown .blockReset = s := by rw [State.linkDown, h]
  rw [hself]
  refine ⟨.refl _ _, ?_, ?_, ⟨rfl, rfl⟩, fun _ => ⟨rfl, rfl⟩, fun hup => ?_⟩
  · simp [State.downTold, h]
  · have hup : s.link.state ≠ .up := by simp [h]
    rw [if_pos h, if_neg hup, if_neg hup, ← h]
  · simp [h] at hup

theorem linkDown_surveying (h : s.link.state = .surveying) : LinkDowned s (s.linkDown .blockReset) := by
  have hleave : s.linkDown .blockReset = s.leaveSurvey .blockReset := by rw [State.linkDown, h]
  rw [hleave]
  refine ⟨(leaveSurvey_same s _).mono (by simp), ?_, ?_, ⟨rfl, rfl⟩, fun _ => ⟨rfl, rfl⟩, fun hup => ?_⟩
  · refine Eq.trans (b := (s.linkTold .down s.link.state .blockReset).accounts) rfl ?_
    simp [State.downTold, h]
  · have hdown : s.link.state ≠ .down := by simp [h]
    have hup : s.link.state ≠ .up := by simp [h]
    rw [if_neg hdown, if_neg hup, if_neg hup]
    rfl
  · simp [h] at hup

end

/-- The departure from UP, in the five steps of R72. -/
theorem linkDown_up {s : State} (h : s.link.state = .up) : LinkDowned s (s.linkDown .blockReset) := by
  have hdepart : s.linkDown .blockReset = (s.setLink .down .blockReset).cancelAll.clearPool := by
    rw [State.linkDown, h]
    rfl
  have hset := setLink_same s .down .blockReset
  have htold : (s.setLink .down .blockReset).accounts
      = (s.linkTold .down s.link.state .blockReset).accounts := rfl
  have hlink : (s.setLink .down .blockReset).link = { s.link with state := .down } := rfl
  have hl : (s.setLink .down .blockReset).link.state ≠ .up := by simp [hlink]
  have hentry (d : Dest) : (s.setLink .down .blockReset).entry d = s.entry d := rfl
  have hmap : (s.setLink .down .blockReset).map = s.map := rfl
  rw [hdepart]
  generalize s.setLink .down .blockReset = u at *
  obtain ⟨hdests, hsources, hwaiting⟩ := cancelAll_frame hl
  have hwalls := (cancelAll_walls hl).trans (queueTiles_walls (hset .walls (by simp)) _)
  simp only [hentry] at hwalls
  refine ⟨?_, ?_, ?_, ⟨?_, ?_⟩, fun hn => absurd h hn, fun _ => ⟨fun d => ?_, fun d hd w i hi => ?_,
    fun hlaw => ?_⟩⟩
  · exact ((hset.mono (by simp)).trans ((cancelAll_same u).mono (by simp))).trans
      ((withLink_same _ _).mono (by simp))
  · refine (cancelAll_accounts hl).trans ?_
    simp only [State.downTold, h, if_true, if_neg (show ¬ LinkState.up = .down from nofun)]
    rw [h] at htold
    exact foldl_reportTakes_accounts htold (hset .groups (by simp)) fun d _ => hentry d
  · change { u.cancelAll.link with pool := Vector.replicate 255 .free, waiting := [], queue := [] } = _
    simp only [h, if_true, if_neg (show ¬ LinkState.up = .down from nofun)]
    rw [hlink] at hwaiting
    exact congrArg (fun l : Link => { l with pool := Vector.replicate 255 .free, queue := [] }) hwaiting
  · exact hdests.trans (congrArg CrosspointMap.dests hmap)
  · exact hsources.trans (congrArg CrosspointMap.sources hmap)
  · exact (cancelAll_entry hl d).trans (by rw [hentry])
  · exact mem_queue_of_walls hwalls (List.mem_flatMap.2 ⟨d, by simpa using hd, hi⟩)
  · exact queued_of_walls hwalls (hlaw.nodup_flatMap ((List.nodup_finRange 512).filter _))

theorem linkDown_downed (s : State) : LinkDowned s (s.linkDown .blockReset) := by
  cases h : s.link.state with
  | down => exact linkDown_down h
  | surveying => exact linkDown_surveying h
  | up => exact linkDown_up h

/-! ### The survey that starts -/

/-- The link has been reset. -/
structure LinkReset (s t : State) : Prop where
  same     : SameBut [.control, .map, .walls, .salvos, .link] s t
  accounts : t.accounts = s.resetTold.accounts
  state    : t.link.state = if s.pins.carrier then .surveying else .down
  count    : t.link.unmatched = 0
  receiver : t.link.receiver = s.link.receiver ∧ t.link.lastByte = s.link.lastByte
  outbound : t.link.outbound = s.link.line.toList
    ++ (if s.link.state = .down then s.link.queue else []) ++ (if s.pins.carrier then [.surveyReq] else [])
  stays    : s.link.state ≠ .up → t.map = s.map ∧ t.walls = s.walls
    ∧ t.link.pool = s.link.pool ∧ t.link.waiting = s.link.waiting
  departs  : s.link.state = .up → t.map.dests = s.map.dests ∧ t.map.sources = s.map.sources
    ∧ (∀ d, t.entry d = { s.entry d with pending := none, next := none })
    ∧ (∀ k, t.token k = .free) ∧ t.link.waiting = [] ∧ TilesOfTakesQueued s t

/-- The unmatched-report count is 0. -/
def State.countCleared (s : State) : State := { s with link := { s.link with unmatched := 0 } }

/-- The reset but for the survey. -/
theorem LinkDowned.counted {s u : State} (h : LinkDowned s u) (hc : s.pins.carrier = false) :
    LinkReset s u.countCleared := by
  obtain ⟨hsame, haccounts, hleft, ⟨hdests, hsources⟩, hstays, hdeparts⟩ := h
  have hlink : u.countCleared.link = _ := congrArg (fun l : Link => { l with unmatched := 0 }) hleft
  refine ⟨hsame.trans ((withLink_same u _).mono (by simp)), ?_, ?_, rfl, ?_, ?_, fun hn => ?_, fun hup => ?_⟩
  · rw [State.resetTold, hc]
    exact haccounts
  · simp [hlink, hc]
  · rw [hlink]
    exact ⟨rfl, rfl⟩
  · simp [Link.outbound, hlink, hc]
  · obtain ⟨hmap, hwalls⟩ := hstays hn
    rw [hlink]
    exact ⟨hmap, hwalls, if_neg hn, if_neg hn⟩
  · obtain ⟨hentry, htiles⟩ := hdeparts hup
    refine ⟨hdests, hsources, hentry, fun k => ?_, ?_, htiles⟩
    · simp [State.token, hlink, hup]
    · simp [hlink, hup]

/-- A survey has started from DOWN. -/
structure SurveyStarted (s t : State) : Prop where
  same     : SameBut [.control, .link] s t
  accounts : t.accounts
    = (s.raise (linkNotice .surveying .down .carrierGained s.map.dests s.map.sources)).accounts
  state    : t.link.state = .surveying
  kept     : t.link.unmatched = s.link.unmatched ∧ t.link.receiver = s.link.receiver
    ∧ t.link.lastByte = s.link.lastByte
  pool     : t.link.pool = s.link.pool ∧ t.link.waiting = s.link.waiting
  outbound : t.link.outbound = s.link.outbound ++ [.surveyReq]

theorem startSurvey_started {s : State} (h : s.link.state = .down) : SurveyStarted s s.startSurvey := by
  have hsame := startSurvey_same s
  rw [startSurvey_eq h] at hsame ⊢
  obtain ⟨hstate, hcount, hreceiver, hlast⟩ := Link.begin_steady
    { s.link with state := .surveying, queue := s.link.queue ++ [.surveyReq] }
  refine ⟨hsame, rfl, hstate, ⟨hcount, hreceiver, hlast⟩,
    ⟨Link.begin_pool _, Link.begin_waiting _⟩, (Link.begin_outbound _).trans ?_⟩
  simp [Link.outbound]

theorem raise_accounts {s u : State} (h : u.accounts = s.accounts) (n : Notice) :
    (u.raise n).accounts = (s.raise n).accounts := by
  obtain ⟨hc, hs⟩ := accounts_eq_iff.1 h
  simp only [State.accounts, State.raise, hc, hs]

/-- The reset with the survey that the carrier starts. -/
theorem LinkDowned.surveyed {s u t : State} (h : LinkDowned s u) (hc : s.pins.carrier = true)
    (hst : SurveyStarted u.countCleared t) : LinkReset s t := by
  obtain ⟨hsame, haccounts, hleft, ⟨hdests, hsources⟩, hstays, hdeparts⟩ := h
  have hlink : u.countCleared.link = _ := congrArg (fun l : Link => { l with unmatched := 0 }) hleft
  obtain ⟨htsame, htaccounts, hstate, ⟨hcount, hreceiver, hlast⟩, ⟨hpool, hwaiting⟩, houtbound⟩ := hst
  have hmap : t.map = u.map := htsame .map (by simp)
  have hwalls : t.walls = u.walls := htsame .walls (by simp)
  have hentry (d : Dest) : t.entry d = u.entry d := by rw [State.entry, State.entry, hmap]
  refine ⟨(hsame.trans ((withLink_same u _).mono (by simp))).trans (htsame.mono (by simp)), ?_, ?_, hcount,
    ⟨?_, ?_⟩, ?_, fun hn => ?_, fun hup => ?_⟩
  · rw [State.resetTold, hc, if_pos rfl, htaccounts, ← hdests, ← hsources]
    exact raise_accounts haccounts _
  · rw [hc, if_pos rfl, hstate]
  · rw [hreceiver, hlink]
  · rw [hlast, hlink]
  · rw [houtbound, hc, if_pos rfl]
    simp [Link.outbound, hlink]
  · obtain ⟨hum, huw⟩ := hstays hn
    rw [hpool, hwaiting, hlink]
    exact ⟨hmap.trans hum, hwalls.trans huw, if_neg hn, if_neg hn⟩
  · obtain ⟨hue, hlost, hqueued⟩ := hdeparts hup
    have hwall (w : WallNo) : t.wall w = u.wall w := wall_congr hwalls w
    refine ⟨by rw [hmap, hdests], by rw [hmap, hsources], fun d => (hentry d).trans (hue d), fun k => ?_, ?_,
      ?_, fun hlaw => ?_⟩
    · simp [State.token, hpool, hlink, hup]
    · simp [hwaiting, hlink, hup]
    · simpa only [hwall] using hlost
    · simpa only [Queued, hwall] using hqueued hlaw

theorem resetLink_resets (s : State) : LinkReset s s.resetLink := by
  have hdowned := linkDown_downed s
  have hreset : s.resetLink = if (s.linkDown .blockReset).pins.carrier
      then (s.linkDown .blockReset).countCleared.startSurvey else (s.linkDown .blockReset).countCleared := rfl
  rw [hreset, show (s.linkDown .blockReset).pins = s.pins from hdowned.same .pins (by simp)]
  split
  · next hc => exact hdowned.surveyed hc (startSurvey_started (congrArg Link.state hdowned.link))
  · next hc => exact hdowned.counted (eq_false_of_ne_true hc)

/-- Settles O37: the reset of the link, served as an order. -/
theorem linkBlockResetRestartsTheLink : Obligations.LinkBlockResetRestartsTheLink := by
  unfold Obligations.LinkBlockResetRestartsTheLink
  intro τ s o h hblock counts u v w
  have hb : block? (read8 o.payload 0) (read8 o.payload 1) = some .link :=
    congrArg (block? · (read8 o.payload 1)) hblock
  have hreset := resetLink_resets (s.atDesk τ o)
  have htold : w = s.resetTold := rfl
  have howed : (s.atDesk τ o).resetLink.recorder.high = [] :=
    (congrArg Recorder.high (hreset.same .recorder (by simp))).trans h.owed
  have hexec : exec (.blockResetLink τ) s = .next { (s.atDesk τ o).resetLink with
      control := (s.atDesk τ o).resetLink.control.answered o .done (be8 0 ++ be8 0xFF) } :=
    congrArg Host.Outcome.next ((serveBlock_eq h τ hb rfl).trans
      (serve_answer h τ (serveBlockReset_atDesk h hb) howed))
  obtain ⟨hcontrol, hsalvos⟩ := accounts_eq_iff.1 hreset.accounts
  rw [atDesk_resetTold] at hcontrol hsalvos
  obtain ⟨hsame, -, hstate, hcount, ⟨hreceiver, hlast⟩, houtbound, hstays, hdeparts⟩ := hreset
  refine ⟨_, hexec, ?_, hsame .now (by simp), ?_, ?_, hstays, fun hup => ?_, hstate, hcount, hreceiver, hlast,
    houtbound⟩
  · exact (((atDesk_same s τ o).mono (by simp)).trans (hsame.mono (by simp))).trans
      ((withControl_same _ _).mono (by simp))
  · rw [htold]
    exact (congrArg (fun c => Control.answered c o .done _) hcontrol).trans (beginServing_answered ..)
  · rw [htold]
    exact hsalvos
  · obtain ⟨hdests, hsources, hentry, hfree, hwaiting, hlost, hqueued⟩ := hdeparts hup
    exact ⟨hdests, hsources, hentry, hfree, hwaiting, hlost, fun hlaw =>
      hqueued (hlaw.of_lists (fun _ => rfl) fun _ _ => rfl)⟩

end Sys2Proof.Machine
end

section
/-! O39, O40: a reported source is applied, and the blocks it is handed to follow (R70, R83, R11). -/

namespace Sys2Proof.Machine

/-! ### The tiles that are queued (R11, R12) -/

/-- A tile that stands in a queue goes on standing there. -/
theorem queued_mapLaw (w : WallNo) (i : TileNo) : MapLaw (fun u => i ∈ (u.wall w).queue) where
  quiet s t h hs := by
    have hwalls : t.walls = s.walls := h .walls (by simp [quietParts])
    exact (congrArg (fun r : Wall => i ∈ r.queue) (wall_congr hwalls w)).mpr hs
  entry _ _ _ _ _ _ hs := hs
  showDest _ hs := (mem_queueTiles _ _ w i).2 (.inl hs)
  showSource _ hs := (mem_queueTiles _ _ w i).2 (.inl hs)

section
variable {s : State} {d : Dest} {w : WallNo} {i : TileNo} (hi : (w, i) ∈ (s.entry d).tiles)
include hi

theorem sourceShown_queues (old new : Option Source) :
    i ∈ ((s.sourceShown d old new).wall w).queue :=
  (queued_mapLaw w i).tallyChange d old new ((mem_queueTiles _ _ w i).2 (.inr hi))

theorem writeSource_queues {x : Option Source} (h : (s.entry d).source ≠ x) (cause : ChangeCause) :
    i ∈ ((s.writeSource d x cause).wall w).queue := by
  have hstep : s.writeSource d x cause = _ := if_neg h
  rw [hstep]
  exact (queued_mapLaw w i).still (splitRecorders_same _ d cause _ x)
    (sourceShown_queues (by rw [State.setEntry_entry_self]; exact hi) _ x) (by simp [quietParts])

theorem clearSource_queues : i ∈ ((s.clearSource d).wall w).queue :=
  sourceShown_queues (s := s.setEntry d { s.entry d with source := none })
    (by rw [State.setEntry_entry_self]; exact hi) _ none

theorem setSuspect_queues {v : Bool} (h : (s.entry d).suspect ≠ v) :
    i ∈ ((s.setSuspect d v).wall w).queue := by
  have hstep : s.setSuspect d v = _ := if_neg h
  rw [hstep]
  exact (mem_queueTiles _ _ w i).2 (.inr (by rw [State.setEntry_entry_self]; exact hi))

end

/-! ### The source is applied -/

/-- A reported source is applied: written, and the suspect flag cleared. -/
def State.learned (s : State) (d : Dest) (x : Source) (cause : ChangeCause) : State :=
  (s.writeSource d (some x) cause).setSuspect d false

/-- The followers of a destination to which a source has been applied: the channels that record it have
split where the source has changed, and its tiles are queued where anything shown has changed. -/
structure SourceFollowed (s t : State) (d : Dest) (x : Source) (cause : ChangeCause) : Prop where
  commands : t.recorder.commands
    = if (s.entry d).source ≠ some x then (s.splitsOf d).commands else s.recorder.commands
  chan     : ∀ c, t.chan c = if (s.entry d).source ≠ some x ∧ c ∈ s.recordersOf d
    then s.cutChannel d (markOf cause) (some x) c else s.chan c
  tiles    : (s.entry d).source ≠ some x ∨ (s.entry d).suspect = true →
    ∀ w i, (w, i) ∈ (s.entry d).tiles → i ∈ (t.wall w).queue

/-- A source has been applied to a destination. -/
structure SourceLearned (s t : State) (d : Dest) (x : Source) (cause : ChangeCause) : Prop where
  same     : SameBut [.map, .tally, .walls, .recorder] s t
  map      : t.map = (s.setEntry d { s.entry d with source := some x, suspect := false }).map
  high     : t.recorder.high = s.recorder.high
    ++ if (s.entry d).source ≠ some x then s.marksHigh (s.recordersOf d) else []
  followed : SourceFollowed s t d x cause

theorem learned_learns (s : State) (d : Dest) (x : Source) (cause : ChangeCause) :
    SourceLearned s (s.learned d x cause) d x cause := by
  have hwritten := writeSource_written s d (some x) cause
  have htiles {w : WallNo} {i : TileNo} (hi : (w, i) ∈ (s.entry d).tiles)
      (h : (s.entry d).source ≠ some x) := writeSource_queues hi h cause
  rw [State.learned]
  generalize s.writeSource d (some x) cause = u at *
  have hcleared := setSuspect_same u d false
  have huentry := entry_of_map hwritten.map
  have hrec : (u.setSuspect d false).recorder = u.recorder := hcleared .recorder (by simp)
  refine ⟨hwritten.same.comp hcleared (by simp) (by simp), ?_, ?_, ?_, fun c => ?_, fun h w i hi => ?_⟩
  · rw [setSuspect_map, huentry]
    exact setEntry_map_twice hwritten.map
  · rw [hrec, hwritten.high]
  · rw [hrec, hwritten.commands]
  · exact (congrArg (fun r : Recorder => r.channels[c]) hrec).trans (hwritten.chan c)
  · obtain h | h := h
    · exact (queued_mapLaw w i).setSuspect d false (htiles hi h)
    · exact setSuspect_queues (by rw [huentry]; exact hi) (by simp [huentry, h])

/-! ### Seen from before the link's part of the event -/

section
variable {s f t : State} {d : Dest} {x : Source} {cause : ChangeCause}

theorem SourceFollowed.splits (h : SourceFollowed s t d x cause) :
    SplitsIssued s t (if (s.entry d).source ≠ some x then [d] else []) := by
  have hcommands := h.commands
  split
  · next hcut => exact splitsIssued_single (hcommands.trans (if_pos hcut))
  · next hcut => exact splitsIssued_none (hcommands.trans (if_neg hcut))

section
variable (hsf : SameBut [.now, .map, .link] s f)
  (he : f.entry d = { s.entry d with pending := (f.entry d).pending })
include hsf he

/-- The followers do not read the time, the takes and the link. -/
theorem SourceFollowed.before (h : SourceFollowed f t d x cause) : SourceFollowed s t d x cause := by
  obtain ⟨hcommands, hchan, htiles⟩ := h
  have hrec : f.recorder = s.recorder := hsf .recorder (by simp)
  have hgroup : (f.entry d).group = (s.entry d).group := by rw [he]
  have hsource : (f.entry d).source = (s.entry d).source := by rw [he]
  have hsuspect : (f.entry d).suspect = (s.entry d).suspect := by rw [he]
  have hlist : (f.entry d).tiles = (s.entry d).tiles := by rw [he]
  have hfchan (c : ChannelNo) : f.chan c = s.chan c := chan_of_same hsf (by simp) c
  rw [hsource, hrec, splitsOf_congr hrec (hsf .groups (by simp)) hgroup] at hcommands
  rw [hsource, hsuspect, hlist] at htiles
  refine ⟨hcommands, fun c => ?_, htiles⟩
  rw [hchan, hsource, recordersOf_of_same hsf, hfchan, State.cutChannel, State.cutChannel, hfchan, hgroup,
    hsource, stamp_of_same hsf (by simp)]

/-- So do the MARKS_HIGH owed. -/
theorem SourceLearned.high_before (h : SourceLearned f t d x cause) (ho : s.recorder.high = []) :
    t.recorder.high = if (s.entry d).source ≠ some x then s.marksHigh (s.recordersOf d) else [] := by
  have hrec : f.recorder = s.recorder := hsf .recorder (by simp)
  have hsource : (f.entry d).source = (s.entry d).source := by rw [he]
  rw [h.high, hsource, hrec, ho, recordersOf_of_same hsf,
    marksHigh_congr fun c _ => chan_of_same hsf (by simp) c, List.nil_append]

end

end

end Sys2Proof.Machine
end

section
/-! O39: a report in UP that is not matched (R79, R80, R83, R84). -/

namespace Sys2Proof.Machine

/-! ### The class of a report (R80, R174) -/

theorem below?_eq_some {n v : Nat} {x : Fin n} : below? n v = some x ↔ v = x.1 := by
  unfold below?
  split
  · rw [Option.some.injEq, Fin.ext_iff]
  · simp only [reduceCtorEq, false_iff]
    omega

theorem token?_eq_some {v : Nat} {k : Token} : token? v = some k ↔ v = k.1 + 1 := by
  unfold token?
  split
  · simp [*]
  · rw [below?_eq_some]
    omega

theorem token?_byte_eq_none {b : Byte} : token? b.toNat = none ↔ b = 0 := by
  have hzero : b.toNat = 0 ↔ b = 0 := by
    rw [← BitVec.toNat_inj]
    rfl
  rw [← hzero, Option.eq_none_iff_forall_ne_some]
  refine ⟨fun h => ?_, fun h k hk => by have := token?_eq_some.1 hk; omega⟩
  by_contra hn
  exact h ⟨b.toNat - 1, by omega⟩ (token?_eq_some.2 (by simp only; omega))

/-- A report carries a token, without the survey flag, that is in a state of the pool. -/
def State.carries (s : State) (token survey : Byte) (c : TokenState) : Prop :=
  survey = 0 ∧ ∃ k : Token, token.toNat = k.1 + 1 ∧ s.token k = c

section
variable {s : State} {d : Dest} {token survey : Byte}

theorem carries_iff {c : TokenState} : s.carries token survey c
    ↔ survey = 0 ∧ (token? token.toNat).any (s.token · = c) := by
  simp only [State.carries, Option.any_eq_true, token?_eq_some, decide_eq_true_eq]

theorem classify_stray {k : Token} (hk : token.toNat = k.1 + 1) (h : s.token k = .stale d) :
    s.classify d token ((0 : Byte) != 0) = .stray k := by
  simp [State.classify, token?_eq_some.2 hk, h]

/-- A report that is neither matched nor stray is foreign, and is counted when it carries a token. -/
theorem classify_unclaimed (hstray : ¬ s.carries token survey (.stale d))
    (hmatched : ¬ (survey = 0 ∧ ∃ k : Token, token.toNat = k.1 + 1 ∧ s.token k = .inUse
      ∧ ∃ p, (s.entry d).pending = some p ∧ p.token = some k)) :
    s.classify d token (survey != 0) = if survey = 0 ∧ token ≠ 0 then .unknown else .foreign := by
  by_cases hsv : survey = 0
  · subst hsv
    unfold State.classify
    cases ht : token? token.toNat with
    | none => simp [token?_byte_eq_none.1 ht]
    | some k =>
      have hk := token?_eq_some.1 ht
      have hnz : token ≠ 0 := fun h => by simp [token?_byte_eq_none.2 h] at ht
      rw [if_neg (show ¬ ((0 : Byte) != 0) = true by simp), if_pos (And.intro rfl hnz)]
      cases hc : s.token k with
      | free => simp [hc]
      | inUse =>
        have hheld : s.holds d k = false :=
          eq_false_of_ne_true fun h => hmatched ⟨rfl, k, hk, hc, (holds_iff s d k).1 h⟩
        simp [hc, hheld]
      | stale c =>
        have hcd : c ≠ d := fun h => hstray ⟨rfl, k, hk, h ▸ hc⟩
        simp [hc, hcd]
  · rw [if_neg fun h => hsv h.1, State.classify, if_pos (bne_iff_ne.2 hsv)]

end

/-! ### What a report does by its class (R79, R80) -/

/-- The count of R86 for a report that is neither matched nor stray: it increases where a token came
without the survey flag. -/
def State.judged (s : State) (token survey : Byte) : State :=
  if survey = 0 ∧ token ≠ 0 then s.unmatch else s

section
variable {s : State} (hl : s.link.state = .up)
include hl

theorem report_up_out {r : Report}
    (h : 512 ≤ r.dest ∨ s.map.dests ≤ r.dest ∨ 1024 ≤ r.source) : s.report r = s.unmatch := by
  have hup : s.report r = s.upReport r := by rw [State.report, hl]
  rw [hup, State.upReport]
  split
  · next d x hd hx =>
    have habsent : s.present d = false := by
      have hdest := below?_eq_some.1 hd
      have hsource := below?_eq_some.1 hx
      exact decide_eq_false (by omega)
    rw [habsent]
    rfl
  · rfl

variable {d : Dest} (hd : d.1 < s.map.dests) (x : Source) {token : Byte} (held : Nat)
include hd

theorem report_up_stray {k : Token} (hk : token.toNat = k.1 + 1) (h : s.token k = .stale d) :
    s.report ⟨d.1, x.1, token, held, (0 : Byte) != 0⟩ = (s.freeToken k).applyForeign d x token true := by
  have hpresent : s.present d = true := decide_eq_true hd
  simp only [State.report, hl, State.upReport, dest?_val, source?_val, hpresent, classify_stray hk h,
    Bool.not_true, Bool.false_eq_true, if_false]

theorem report_up_unclaimed {survey : Byte} (hc : s.classify d token (survey != 0)
      = if survey = 0 ∧ token ≠ 0 then .unknown else .foreign) :
    s.report ⟨d.1, x.1, token, held, survey != 0⟩
      = (s.judged token survey).applyForeign d x token false := by
  have hpresent : s.present d = true := decide_eq_true hd
  simp only [State.report, hl, State.upReport, dest?_val, source?_val, hpresent, State.judged,
    Bool.not_true, Bool.false_eq_true, if_false]
  split at hc
  · next h => rw [hc, if_pos h]
  · next h => rw [hc, if_neg h]

end

/-! ### A report is applied as foreign (R83, R84) -/

section
variable (s f t : State) (d : Dest) (x : Source) (token : Byte) (stray : Bool)

theorem applyForeign_eq : f.applyForeign d x token stray = { f.learned d x .foreign with
    control := if (f.entry d).source = some x then (f.learned d x .foreign).control
      else (f.learned d x .foreign).control.raise (foreignNotice d (f.entry d).source (some x) token stray
        (f.entry d).group (f.destStamp d)) } := by
  unfold State.applyForeign
  dsimp only
  split <;> rfl

/-- The source has been applied, with the cause FOREIGN, after the link's part `f` of the event. -/
structure ForeignApplied : Prop where
  happened : Happened s t f.now
    (if (s.entry d).source = some x then [] else
      foreignNotice d (s.entry d).source (some x) token stray (s.entry d).group (s.destStamp d)
        :: s.marksHigh (s.recordersOf d))
    [.map, .link, .tally, .walls, .recorder]
  map      : t.map = (f.setEntry d { f.entry d with source := some x, suspect := false }).map
  link     : t.link = f.link
  followed : SourceFollowed s t d x .foreign

variable {s f}

theorem applyForeign_applies (hsf : SameBut [.now, .map, .link] s f)
    (he : f.entry d = { s.entry d with pending := (f.entry d).pending }) (ho : s.recorder.high = []) :
    ForeignApplied s f (f.applyForeign d x token stray).paid d x token stray := by
  have hlearned := learned_learns f d x .foreign
  have hhigh := hlearned.high_before hsf he ho
  obtain ⟨hcommands, hchan, htiles⟩ := hlearned.followed.before hsf he
  have hsource : (f.entry d).source = (s.entry d).source := by rw [he]
  have hgroup : (f.entry d).group = (s.entry d).group := by rw [he]
  have hstamp : f.destStamp d = s.destStamp d := by
    rw [State.destStamp, State.destStamp, hgroup, stamp_of_same hsf (by simp)]
  have hcontrol : (f.learned d x .foreign).control = s.control :=
    (hlearned.same .control (by simp)).trans (hsf .control (by simp))
  rw [applyForeign_eq, hsource, hgroup, hstamp, hcontrol]
  generalize f.learned d x .foreign = u at *
  refine ⟨⟨hlearned.same .now (by simp), ?_, ?_⟩, hlearned.map, hlearned.same .link (by simp),
    hcommands, hchan, htiles⟩
  · simp only [State.paid, hhigh]
    split <;> simp [*]
  · have hpaid (c : Control) : SameBut [.control, .recorder] u { u with control := c }.paid :=
      (withControl_same u c).comp (paid_same _) (by simp) (by simp)
    exact hsf.comp (hlearned.same.comp (hpaid _) (rs := [.control, .map, .tally, .walls, .recorder])
      (by simp) (by simp)) (by simp) (by simp)

end

/-! ### The link's part of the event (R77, R80, R82) -/

theorem judged_same (s : State) (token survey : Byte) : SameBut [.link] s (s.judged token survey) := by
  unfold State.judged
  split
  · exact unmatch_same s
  · exact .refl _ _

theorem judged_link (s : State) (token survey : Byte) : (s.judged token survey).link = { s.link with
    unmatched := if survey = 0 ∧ token ≠ 0 then min (s.link.unmatched + 1) 65535
      else s.link.unmatched } := by
  unfold State.judged
  split <;> rfl

/-- What the link does at a report that is not matched, before the report is applied: the token of a stray
one is freed, one that carries another token is counted. -/
structure LinkJudged (s f : State) (d : Dest) (token survey : Byte) : Prop where
  same      : SameBut [.map, .link] s f
  entry     : f.entry d = { s.entry d with pending := (f.entry d).pending }
  idle      : ¬ s.carries token survey (.stale d) ∨ s.link.waiting.head? ≠ some d → f.entry d = s.entry d
  counted   : ¬ s.carries token survey (.stale d) → f.map = s.map ∧ f.link = { s.link with
    unmatched := if survey = 0 ∧ token ≠ 0 then min (s.link.unmatched + 1) 65535 else s.link.unmatched }
  unclaimed : s.carries token survey (.stale d) → s.link.waiting = [] → f.map = s.map
    ∧ f.link = { s.link with pool := f.link.pool }
    ∧ ∀ k : Token, f.token k = if token.toNat = k.1 + 1 then .free else s.token k
  granted   : ∀ (k : Token) c cs q, s.carries token survey (.stale d) → token.toNat = k.1 + 1 →
    s.link.waiting = c :: cs → (s.entry c).pending = some q → TokenGranted s f k c cs q

/-- A report that is not stray is counted or not. -/
theorem judged_of_unclaimed {s : State} {d : Dest} {token survey : Byte}
    (hstray : ¬ s.carries token survey (.stale d)) :
    LinkJudged s (s.judged token survey) d token survey := by
  have hsame := judged_same s token survey
  have hm : (s.judged token survey).map = s.map := hsame .map (by simp)
  have he : (s.judged token survey).entry d = s.entry d := by rw [State.entry, State.entry, hm]
  exact ⟨hsame.mono (by simp), by rw [he], fun _ => he, fun _ => ⟨hm, judged_link s token survey⟩,
    fun h => absurd h hstray, fun _ _ _ _ h => absurd h hstray⟩

section
variable (s : State) (k : Token) {d : Dest}

/-- Only the oldest waiting take is granted a freed token. -/
theorem freeToken_entry_of_not_oldest (h : s.link.waiting.head? ≠ some d) :
    (s.freeToken k).entry d = s.entry d := by
  unfold State.freeToken
  split
  · rfl
  · next c cs hw => exact grantWaiting_entry_of_ne _ (fun hc => h (by rw [hw, hc]; rfl)) k

/-- Of an entry, a grant writes the pending take alone. -/
theorem grantWaiting_entry_frame (c : Dest) : (s.grantWaiting c k).entry c
    = { s.entry c with pending := ((s.grantWaiting c k).entry c).pending } := by
  unfold State.grantWaiting
  split
  · rfl
  · next p _ =>
    have hentry (q : Pending) : ((s.setPending c q).sendMatrix (.routeReq c p.source k)).entry c
        = { s.entry c with pending := some q } := setPending_entry_self s c q
    rw [hentry]

theorem freeToken_entry_frame (d : Dest) : (s.freeToken k).entry d
    = { s.entry d with pending := ((s.freeToken k).entry d).pending } := by
  by_cases h : s.link.waiting.head? = some d
  · obtain ⟨cs, hw⟩ := List.head?_eq_some_iff.1 h
    rw [State.freeToken, hw]
    exact grantWaiting_entry_frame _ k d
  · rw [freeToken_entry_of_not_oldest s k h]

/-- The token of a stray report is freed. -/
theorem judged_of_stray {survey : Byte} {token : Byte} (hk : token.toNat = k.1 + 1)
    (hstray : s.carries token survey (.stale d)) : LinkJudged s (s.freeToken k) d token survey := by
  have hfree := freeToken_freed s k
  refine ⟨hfree.same, freeToken_entry_frame s k d,
    fun h => freeToken_entry_of_not_oldest s k (h.resolve_left fun hn => hn hstray),
    fun h => absurd hstray h, fun _ hw => ?_, fun j c cs q _ hj hw hq => ?_⟩
  · rw [hfree.unclaimed hw]
    refine ⟨rfl, rfl, fun j => ?_⟩
    have hjk : token.toNat = j.1 + 1 ↔ j = k := by
      rw [hk, Fin.ext_iff]
      omega
    rw [State.setToken_token, if_congr hjk rfl rfl]
  · obtain rfl : j = k := Fin.ext (by omega)
    exact hfree.granted c cs q hw hq

end

/-! ### The two ways together -/

section
variable {s f t : State} {d : Dest} {x : Source} {token : Byte} {stray : Bool}

theorem ForeignApplied.entry (h : ForeignApplied s f t d x token stray)
    (he : f.entry d = { s.entry d with pending := (f.entry d).pending }) : t.entry d
      = { s.entry d with source := some x, suspect := false, pending := (f.entry d).pending } := by
  rw [entry_of_map h.map, he]

theorem ForeignApplied.entry_of_ne (h : ForeignApplied s f t d x token stray) {c : Dest} (hc : c ≠ d) :
    t.entry c = f.entry c := by
  obtain ⟨-, -, honly⟩ := onlyEntry_of_map h.map
  exact honly c hc

theorem ForeignApplied.pending (h : ForeignApplied s f t d x token stray) (c : Dest) :
    (t.entry c).pending = (f.entry c).pending := by
  by_cases hc : c = d
  · rw [hc, entry_of_map h.map]
  · rw [h.entry_of_ne hc]

theorem ForeignApplied.token_eq (h : ForeignApplied s f t d x token stray) (k : Token) :
    t.token k = f.token k := by
  rw [State.token, State.token, h.link]

theorem ForeignApplied.onlyEntry (h : ForeignApplied s f t d x token stray) (hm : f.map = s.map) :
    OnlyEntry d s t := by
  have honly := onlyEntry_of_map h.map
  rw [OnlyEntry, hm] at honly
  simpa only [OnlyEntry, State.entry, hm] using honly

end

/-- What a report in UP that is not matched does. -/
theorem report_up_foreign {s : State} (hl : s.link.state = .up) {d : Dest} (hd : d.1 < s.map.dests)
    (x : Source) {token survey : Byte} (held : Nat)
    (hmatched : ¬ (survey = 0 ∧ ∃ k : Token, token.toNat = k.1 + 1 ∧ s.token k = .inUse
      ∧ ∃ p, (s.entry d).pending = some p ∧ p.token = some k)) :
    ∃ f stray, LinkJudged s f d token survey ∧ (stray = true ↔ s.carries token survey (.stale d))
      ∧ s.report ⟨d.1, x.1, token, held, survey != 0⟩ = f.applyForeign d x token stray := by
  by_cases hstray : s.carries token survey (.stale d)
  · obtain ⟨hsv, k, hk, hstale⟩ := id hstray
    subst hsv
    exact ⟨_, true, judged_of_stray s k hk hstray, iff_of_true rfl hstray,
      report_up_stray hl hd x held hk hstale⟩
  · exact ⟨_, false, judged_of_unclaimed hstray, iff_of_false nofun hstray,
      report_up_unclaimed hl hd x held (classify_unclaimed hstray hmatched)⟩

/-- Settles O39: the token of a stray report is freed, or the report is counted; then it is applied. -/
theorem unmatchedReportIsAppliedAsForeign : Obligations.UnmatchedReportIsAppliedAsForeign := by
  unfold Obligations.UnmatchedReportIsAppliedAsForeign
  intro τ s dest source token held survey hr ho hrec hl now counted
  have hexec := exec_routeReport τ hr hrec dest source token held survey
  refine ⟨fun hout => ?_, ?_⟩
  · have hreport := report_up_out (s := s.clock τ)
      (r := ⟨dest.toNat, source.toNat, token, held.toNat, survey != 0⟩) hl hout
    rw [hexec, hreport, paid_of_owed (s := (s.clock τ).unmatch) ho]
    rfl
  intro d x hd hx hpresent e inUseHere stray cut hmatched
  obtain ⟨f, b, hjudged, hb, hreport⟩ := report_up_foreign (s := s.clock τ) hl hpresent x held.toNat hmatched
  rw [hd, hx, hreport] at hexec
  have hsf : SameBut [.now, .map, .link] s f :=
    (clock_same s τ).comp hjudged.same (by simp) (by simp)
  have hnow : f.now = now := hjudged.same .now (by simp)
  have happ := applyForeign_applies d x token b hsf hjudged.entry ho
  generalize (f.applyForeign d x token b).paid = t at *
  obtain ⟨hhappened, -, hlink, ⟨-, hchan, htiles⟩⟩ := id happ
  have hflag : (survey = 0 ∧ (token? token.toNat).any (s.token · = .stale d)) ↔ b = true :=
    carries_iff.symm.trans hb.symm
  refine ⟨t, hexec, ?_, ?_, fun h => ?_, fun h => ?_, fun h hw => ?_, fun k c cs q h hk hw hq => ?_,
    fun hcut => htiles (.inl hcut), happ.followed.splits, hchan⟩
  · rw [if_congr hflag rfl rfl, ← hnow]
    exact hhappened
  · rw [happ.pending d]
    exact happ.entry hjudged.entry
  · rw [happ.pending d, hjudged.idle h]
    rfl
  · obtain ⟨hm, hl⟩ := hjudged.counted h
    exact ⟨happ.onlyEntry hm, hlink.trans hl⟩
  · obtain ⟨hm, hl, htoken⟩ := hjudged.unclaimed h hw
    exact ⟨happ.onlyEntry hm, by rw [hlink]; exact hl, fun k => (happ.token_eq k).trans (htoken k)⟩
  · obtain ⟨hmap, htoken, hwaiting, houtbound⟩ := hjudged.granted k c cs q h hk hw hq
    obtain ⟨-, -, honly⟩ := onlyEntry_of_map hmap
    rw [happ.pending c, entry_of_map hmap, happ.token_eq, hlink]
    exact ⟨rfl, htoken, hwaiting, houtbound, fun b hbd hbc => (happ.entry_of_ne hbd).trans (honly b hbc)⟩

end Sys2Proof.Machine
end

section
/-! O40: the entries that a survey has not declared take NONE (R71). -/

namespace Sys2Proof.Machine

/-! ### The entries of some destinations are cleared (R9, R11) -/

section
variable (s : State) (d : Dest)

theorem clearSource_map : (s.clearSource d).map = (s.setEntry d { s.entry d with source := none }).map :=
  sourceShown_same _ d _ none .map (by simp)

theorem clearSource_entry_self : (s.clearSource d).entry d = { s.entry d with source := none } :=
  entry_of_map (clearSource_map s d)

theorem clearSource_entry_of_ne {c : Dest} (h : c ≠ d) : (s.clearSource d).entry c = s.entry c := by
  obtain ⟨-, -, honly⟩ := onlyEntry_of_map (clearSource_map s d)
  exact honly c h

/-- The tile list of an entry is left alone, cleared or not. -/
theorem clearSource_tiles (c : Dest) : ((s.clearSource d).entry c).tiles = (s.entry c).tiles := by
  by_cases h : c = d
  · rw [h, clearSource_entry_self]
  · rw [clearSource_entry_of_ne s d h]

end

theorem foldl_clearSource_queues {l : List Dest} {d : Dest} (hd : d ∈ l) {w : WallNo} {i : TileNo}
    {s : State} (hi : (w, i) ∈ (s.entry d).tiles) : i ∈ ((l.foldl State.clearSource s).wall w).queue := by
  induction l generalizing s with
  | nil => cases hd
  | cons a l ih =>
    rw [List.foldl_cons]
    obtain rfl | hd := List.mem_cons.1 hd
    · exact foldl_keeps (I := fun u => i ∈ (u.wall w).queue) (queued_mapLaw w i).clearSource l
        (clearSource_queues hi)
    · exact ih hd (by rwa [clearSource_tiles])

/-- The entries of the destinations `l` have taken NONE, and all but the recorders have followed. -/
structure SourcesCleared (s t : State) (l : List Dest) : Prop where
  same   : SameBut [.map, .tally, .walls] s t
  counts : t.map.dests = s.map.dests ∧ t.map.sources = s.map.sources
  entry  : ∀ d, t.entry d = if d ∈ l then { s.entry d with source := none } else s.entry d
  tiles  : ∀ d ∈ l, ∀ w i, (w, i) ∈ (s.entry d).tiles → i ∈ (t.wall w).queue

theorem foldl_clearSource_clears (s : State) {l : List Dest} (hl : l.Nodup) :
    SourcesCleared s (l.foldl State.clearSource s) l := by
  refine ⟨SameBut.foldl clearSource_same l s, ?_, fun d => ?_, fun d hd w i => foldl_clearSource_queues hd⟩
  · refine foldl_keeps (I := fun u => u.map.dests = s.map.dests ∧ u.map.sources = s.map.sources)
      (fun {u} d hu => ?_) l ⟨rfl, rfl⟩
    rw [clearSource_map]
    exact hu
  · split
    · exact foldl_own (I := fun _ => True) (get := State.entry)
        (new := fun u d => { u.entry d with source := none }) (fun _ _ => trivial)
        (fun u d _ => clearSource_entry_self u d) (fun u d c h => clearSource_entry_of_ne u d h)
        (fun u d c _ h => by rw [clearSource_entry_of_ne u d h]) hl trivial ‹_›
    · exact foldl_untouched State.entry State.clearSource (fun u d c h => clearSource_entry_of_ne u d h)
        l s d ‹_›

/-! ### The channels that record one of them split (R143, R137) -/

/-- The recorder after the SPLITs of the channels that record one of some destinations. -/
def State.splitsAmong (s : State) (l : List Dest) : Recorder :=
  (s.recordersAmong l).foldl (fun r c => r.issue c
    (.split ((s.chan c).clip + 1) (s.chanGroup c) (s.stamp (s.chanGroup c))) (s.chanGroup c)
    (s.stamp (s.chanGroup c))) s.recorder

/-- A channel whose destination has taken NONE (R143). -/
def State.lostChannel (s : State) (c : ChannelNo) : Channel :=
  Channel.log { s.chan c with clip := (s.chan c).clip + 1 } ⟨.lost, s.chanGroup c,
    s.stamp (s.chanGroup c), (s.chan c).clip + 1, some (s.chanSource c), some none⟩

/-- One channel is split, of those whose destinations have taken NONE since the state `b`. -/
def State.splitLostOf (b u : State) (c : ChannelNo) : State :=
  u.splitChannel (b.chanGroup c) (b.stamp (b.chanGroup c)) .lost (b.chanSource c) none c

theorem mem_recordersAmong {s : State} {l : List Dest} {c : ChannelNo} : c ∈ s.recordersAmong l
    ↔ (s.chan c).state = .recording ∧ (s.chan c).bound.any (· ∈ l) = true := by
  simp [State.recordersAmong]

theorem recordersAmong_nodup (s : State) (l : List Dest) : (s.recordersAmong l).Nodup :=
  (List.nodup_finRange 16).filter _

section
variable (b : State)

theorem splitLostOf_logsOwn : LogsOwn (State.splitLostOf b) where
  other u c a h := (splitChannel_logsOwn _ _ _ _ _).other u c a h
  high u c := (splitChannel_logsOwn _ _ _ _ _).high u c

theorem foldl_splitLostOf_commands {l : List ChannelNo} (hl : l.Nodup) {u : State} {r : Recorder}
    (hr : u.recorder.commands = r.commands) (hc : ∀ c ∈ l, u.chan c = b.chan c) :
    (l.foldl (State.splitLostOf b) u).recorder.commands = (l.foldl (fun r c => r.issue c
      (.split ((b.chan c).clip + 1) (b.chanGroup c) (b.stamp (b.chanGroup c))) (b.chanGroup c)
      (b.stamp (b.chanGroup c))) r).commands := by
  induction l generalizing u r with
  | nil => exact hr
  | cons c l ih =>
    obtain ⟨hcl, hl⟩ := List.nodup_cons.1 hl
    refine ih hl ?_ fun a ha => ?_
    · rw [State.splitLostOf, splitChannel_commands, hc c List.mem_cons_self]
      exact Recorder.issue_commands hr c _ _ _
    · rw [(splitLostOf_logsOwn b).other u c a (ne_of_mem_of_not_mem ha hcl)]
      exact hc a (List.mem_cons_of_mem c ha)

end

section
variable {s u : State} {l : List Dest}

/-- What the recorder unit reads of a channel's destination is there after the clearing, but for the
source. -/
theorem SourcesCleared.chan (h : SourcesCleared s u l) (c : ChannelNo) : u.chan c = s.chan c :=
  chan_of_same h.same (by simp) c

theorem SourcesCleared.chanGroup (h : SourcesCleared s u l) (c : ChannelNo) :
    u.chanGroup c = s.chanGroup c := by
  unfold State.chanGroup
  rw [h.chan]
  split
  · rfl
  · next d _ =>
    rw [h.entry]
    split <;> rfl

theorem SourcesCleared.stamp (h : SourcesCleared s u l) (g : Group) : u.stamp g = s.stamp g :=
  stamp_of_same h.same (by simp) g

/-- The source of a channel's destination has changed where it is one of those cleared: then it is NONE. -/
theorem SourcesCleared.chanSource (h : SourcesCleared s u l) (c : ChannelNo) : u.chanSource c
    = if (s.chan c).bound.any (· ∈ l) then none else s.chanSource c := by
  unfold State.chanSource
  rw [h.chan]
  cases (s.chan c).bound with
  | none => simp
  | some d =>
    simp only [h.entry, Option.any_some, decide_eq_true_eq]
    split <;> rfl

/-- The recorder unit splits the channels that record a cleared destination. -/
theorem SourcesCleared.splitLost_eq (h : SourcesCleared s u l)
    (hl : ∀ d ∈ l, (s.entry d).source ≠ none) :
    u.splitLost s = (s.recordersAmong l).foldl (State.splitLostOf s) u := by
  have hchosen : ((select (fun c : Channel => c.state == .recording) u.recorder.channels).filter
      fun c => s.chanSource c != u.chanSource c) = s.recordersAmong l := by
    rw [select_eq_filter, List.filter_filter]
    refine List.filter_congr fun c _ => ?_
    have hchan : u.recorder.channels[c] = s.chan c := h.chan c
    rw [hchan, h.chanSource]
    cases hb : (s.chan c).bound with
    | none => simp
    | some d =>
      by_cases hd : d ∈ l
      · have hsource : s.chanSource c ≠ none := chanSource_of_bound hb ▸ hl d hd
        simp [hd, hsource, beq_eq_decide]
      · simp [hd]
  rw [State.splitLost, hchosen]
  refine List.foldl_ext _ _ _ fun v c hc => ?_
  obtain ⟨-, hbound⟩ := mem_recordersAmong.1 hc
  rw [h.chanGroup, h.stamp, h.chanSource, if_pos hbound, State.splitLostOf]

/-- The survey's end has cleared the entries of the destinations `l`. -/
structure SourcesLost (s t : State) (l : List Dest) : Prop where
  same     : SameBut [.map, .tally, .walls, .recorder] s t
  counts   : t.map.dests = s.map.dests ∧ t.map.sources = s.map.sources
  entry    : ∀ d, t.entry d = if d ∈ l then { s.entry d with source := none } else s.entry d
  tiles    : ∀ d ∈ l, ∀ w i, (w, i) ∈ (s.entry d).tiles → i ∈ (t.wall w).queue
  commands : t.recorder.commands = (s.splitsAmong l).commands
  high     : t.recorder.high = s.recorder.high ++ s.marksHigh (s.recordersAmong l)
  chan     : ∀ c, t.chan c = if c ∈ s.recordersAmong l then s.lostChannel c else s.chan c

theorem SourcesCleared.lost (h : SourcesCleared s u l) (hl : ∀ d ∈ l, (s.entry d).source ≠ none) :
    SourcesLost s (u.splitLost s) l := by
  have hnodup := recordersAmong_nodup s l
  have hrec : u.recorder = s.recorder := h.same .recorder (by simp)
  have hsplit := splitLost_same u s
  have hmap : (u.splitLost s).map = u.map := hsplit .map (by simp)
  have hwalls : (u.splitLost s).walls = u.walls := hsplit .walls (by simp)
  refine ⟨h.same.comp hsplit (by simp) (by simp), ?_, fun d => ?_, fun d hd w i hi => ?_, ?_, ?_, fun c => ?_⟩
  · rw [hmap]
    exact h.counts
  · rw [State.entry, hmap]
    exact h.entry d
  · rw [wall_congr hwalls]
    exact h.tiles d hd w i hi
  · rw [h.splitLost_eq hl]
    exact foldl_splitLostOf_commands s hnodup (by rw [hrec]) fun c _ => h.chan c
  · rw [h.splitLost_eq hl, (splitLostOf_logsOwn s).foldl_high hnodup, hrec,
      marksHigh_congr fun c _ => h.chan c]
  · rw [h.splitLost_eq hl, (splitLostOf_logsOwn s).foldl_chan
      (new := fun v c => Channel.log { v.chan c with clip := (v.chan c).clip + 1 } ⟨.lost, s.chanGroup c,
        s.stamp (s.chanGroup c), (v.chan c).clip + 1, some (s.chanSource c), some none⟩)
      (fun v c => splitChannel_chan_self ..)
      (fun v c a ha => by rw [(splitLostOf_logsOwn s).other v c a ha]) hnodup]
    simp only [h.chan]
    rfl

end

end Sys2Proof.Machine
end

section
/-! O40: the messages of a survey, in each state of the link (R66, R68, R70, R71). -/

namespace Sys2Proof.Machine

/-! ### A report in a survey (R70) -/

section
variable {s : State} (hl : s.link.state = .surveying)
include hl

theorem report_surveying_out {r : Report} (h : 512 ≤ r.dest ∨ 1024 ≤ r.source) :
    s.report r = s.unmatch := by
  have hsurvey : s.report r = s.surveyReport r := by rw [State.report, hl]
  rw [hsurvey, State.surveyReport]
  split
  · next d x hd hx =>
    have hdest := below?_eq_some.1 hd
    have hsource := below?_eq_some.1 hx
    omega
  · rfl

theorem report_surveying (d : Dest) (x : Source) (token : Byte) (held : Nat) (survey : Bool) :
    s.report ⟨d.1, x.1, token, held, survey⟩ = s.learned d x .survey := by
  simp only [State.report, hl, State.surveyReport, dest?_val, source?_val]
  rfl

end

/-! ### The end of the survey (R71) -/

/-- The declared counts have been written. -/
def State.declare (s : State) (dests sources : Nat) : State :=
  { s with map := { s.map with dests := clamp 1 512 dests, sources := clamp 1 1024 sources } }

/-- The destinations that the counts leave out and that show a source. -/
def State.undeclared (s : State) (dests : Nat) : List Dest :=
  (List.finRange 512).filter fun d => max 1 (min 512 dests) ≤ d.1 ∧ (s.entry d).source ≠ none

theorem undeclared_nodup (s : State) (dests : Nat) : (s.undeclared dests).Nodup :=
  (List.nodup_finRange 512).filter _

theorem mem_undeclared {s : State} {dests : Nat} {d : Dest} : d ∈ s.undeclared dests
    ↔ max 1 (min 512 dests) ≤ d.1 ∧ (s.entry d).source ≠ none := by
  simp [State.undeclared]

theorem clearUndeclared_lost (s : State) (dests sources : Nat) :
    SourcesLost (s.declare dests sources) (s.declare dests sources).clearUndeclared
      (s.undeclared dests) := by
  have hgone : (select (fun e : Entry => e.source.isSome) s.map.entries).filter
      (fun d => !(s.declare dests sources).present d) = s.undeclared dests := by
    rw [select_eq_filter, List.filter_filter]
    refine List.filter_congr fun d _ => ?_
    change (!(s.declare dests sources).present d && (s.entry d).source.isSome) = _
    have habsent : (s.declare dests sources).present d = false ↔ max 1 (min 512 dests) ≤ d.1 :=
      decide_eq_false_iff_not.trans Nat.not_lt
    rw [Bool.eq_iff_iff, Bool.and_eq_true, Bool.not_eq_true', habsent, Option.isSome_iff_ne_none,
      decide_eq_true_eq]
  have hcleared := foldl_clearSource_clears (s.declare dests sources) (undeclared_nodup s dests)
  rw [← hgone] at hcleared ⊢
  exact hcleared.lost fun d hd => (mem_undeclared.1 (hgone ▸ hd)).2

/-- The end of a survey has been taken. -/
structure SurveyEnded (s t : State) (dests sources : Nat) : Prop where
  happened : Happened s t s.now
    (linkNotice .up .surveying .surveyEnd t.map.dests t.map.sources
      :: s.marksHigh (s.recordersAmong (s.undeclared dests)))
    [.map, .link, .tally, .walls, .recorder]
  counts   : t.map.dests = max 1 (min 512 dests) ∧ t.map.sources = max 1 (min 1024 sources)
  link     : t.link = { s.link with state := .up }
  entry    : ∀ d, t.entry d = { s.entry d with
    source := if d.1 < t.map.dests then (s.entry d).source else none }
  tiles    : ∀ d ∈ s.undeclared dests, ∀ w i, (w, i) ∈ (s.entry d).tiles → i ∈ (t.wall w).queue
  splits   : SplitsIssued s t (s.undeclared dests)
  chan     : ∀ c, t.chan c
    = if c ∈ s.recordersAmong (s.undeclared dests) then s.lostChannel c else s.chan c

theorem endSurvey_ends {s : State} (hl : s.link.state = .surveying) (ho : s.recorder.high = [])
    (dests sources : Nat) : SurveyEnded s (s.endSurvey dests sources).paid dests sources := by
  have hend : s.endSurvey dests sources
      = (s.declare dests sources).clearUndeclared.setLink .up .surveyEnd := by rw [State.endSurvey, hl]; rfl
  have hlost := clearUndeclared_lost s dests sources
  have hdeclared : SameBut [.map] s (s.declare dests sources) := withMap_same s _
  rw [hend]
  generalize (s.declare dests sources).clearUndeclared = u at *
  obtain ⟨hsame, ⟨hdests, hsources⟩, hentry, htiles, hcommands, hhigh, hchan⟩ := hlost
  have hsu : SameBut [.map, .tally, .walls, .recorder] s u := hdeclared.comp hsame (by simp) (by simp)
  have hulink : u.link = s.link := hsu .link (by simp)
  have hcontrol : u.control = s.control := hsu .control (by simp)
  have hset := setLink_same u .up .surveyEnd
  have hpaid := (hset.comp (paid_same _) (rs := [.control, .link, .recorder]) (by simp) (by simp))
  refine ⟨⟨hsu .now (by simp), ?_, hsu.comp hpaid (by simp) (by simp)⟩, ⟨hdests, hsources⟩, ?_, fun d => ?_,
    htiles, Prod.mk.inj hcommands, hchan⟩
  · change u.recorder.high.foldl Control.raise
      (u.control.raise (linkNotice .up u.link.state .surveyEnd u.map.dests u.map.sources)) = _
    rw [hhigh, hulink, hl, hcontrol, show (s.declare dests sources).recorder.high = [] from ho]
    rfl
  · change { u.link with state := .up } = _
    rw [hulink]
  · have hcount : u.map.dests = max 1 (min 512 dests) := hdests
    change u.entry d = { s.entry d with source := if d.1 < u.map.dests then (s.entry d).source else none }
    rw [hentry, hcount]
    split
    · next hgone => rw [if_neg (Nat.not_lt.2 (mem_undeclared.1 hgone).1)]; rfl
    · next hstays =>
      split
      · rfl
      · next hd =>
        have hnone : (s.entry d).source = none :=
          by_contra fun hx => hstays (mem_undeclared.2 ⟨Nat.not_lt.1 hd, hx⟩)
        rw [← hnone]
        rfl

/-- A channel whose destination has taken NONE, by that destination. -/
theorem lostChannel_of_bound {s : State} {c : ChannelNo} {d : Dest} (h : (s.chan c).bound = some d) :
    s.lostChannel c = s.cutChannel d .lost none c := by
  rw [State.lostChannel, State.cutChannel, chanGroup_of_bound h, chanSource_of_bound h]

theorem mem_recordersAmong_of_bound {s : State} {l : List Dest} {c : ChannelNo} {d : Dest}
    (h : (s.chan c).bound = some d) : c ∈ s.recordersAmong l ↔ c ∈ s.recordersOf d ∧ d ∈ l := by
  simp [mem_recordersAmong, mem_recordersOf, h]

section
variable {s t : State} {dests sources : Nat} {c : ChannelNo}

theorem SurveyEnded.chan_of_bound (h : SurveyEnded s t dests sources) {d : Dest}
    (hd : (s.chan c).bound = some d) : t.chan c = if c ∈ s.recordersOf d ∧ d ∈ s.undeclared dests
      then s.cutChannel d .lost none c else s.chan c := by
  rw [h.chan, if_congr (mem_recordersAmong_of_bound hd) rfl rfl, lostChannel_of_bound hd]

theorem SurveyEnded.chan_of_unbound (h : SurveyEnded s t dests sources)
    (hd : (s.chan c).bound = none) : t.chan c = s.chan c := by
  rw [h.chan, if_neg]
  simp [mem_recordersAmong, hd]

end

/-! ### The rows -/

theorem report_down {s : State} (hl : s.link.state = .down) (r : Report) : s.report r = s := by
  rw [State.report, hl]

theorem endSurvey_down {s : State} (hl : s.link.state = .down) (dests sources : Nat) :
    s.endSurvey dests sources = s := by
  rw [State.endSurvey, hl]

theorem endSurvey_up {s : State} (hl : s.link.state = .up) (dests sources : Nat) :
    s.endSurvey dests sources = s.unmatch := by
  rw [State.endSurvey, hl]

/-- Settles O40: in SURVEYING the report is applied and the end clears what is not declared; the other
states count or discard. -/
theorem surveyTeachesTheMap : Obligations.SurveyTeachesTheMap := by
  unfold Obligations.SurveyTeachesTheMap
  intro τ s dest source token held survey hr ho hrec now counted report surveyEnd
  have hreport : report = _ := exec_routeReport τ hr hrec dest source token held survey
  have hend : surveyEnd = _ := exec_surveyEnd τ hr hrec dest source
  have hclock := clock_same s τ
  refine ⟨fun hl => ⟨fun hout => ?_, ?_, ?_⟩, fun hl => ?_, fun hl => ⟨?_, ?_⟩⟩
  · rw [hreport, report_surveying_out (s := s.clock τ) hl hout,
      paid_of_owed (s := (s.clock τ).unmatch) ho]
    rfl
  · intro d x hd hx cut
    have hlearned := learned_learns (s.clock τ) d x .survey
    rw [hd, hx, report_surveying (s := s.clock τ) hl] at hreport
    have hbefore : SameBut [.now, .map, .link] s (s.clock τ) := hclock.mono (by simp)
    have hhigh := hlearned.high_before hbefore rfl ho
    have hfollowed := hlearned.followed.before hbefore rfl
    generalize (s.clock τ).learned d x .survey = u at *
    obtain ⟨hsame, hmap, -, -⟩ := hlearned
    refine ⟨_, hreport, ⟨hsame .now (by simp), ?_, ?_⟩, onlyEntry_of_map hmap, hfollowed.splits,
      hfollowed.chan, entry_of_map hmap, hfollowed.tiles⟩
    · rw [State.paid, hhigh, show u.control = s.control from hsame .control (by simp)]
    · exact hclock.comp (hsame.comp (paid_same u) (rs := [.control, .map, .tally, .walls, .recorder])
        (by simp) (by simp)) (by simp) (by simp)
  · intro gone
    have hended := endSurvey_ends (s := s.clock τ) hl ho dest.toNat source.toNat
    obtain ⟨⟨hnow, hcontrol, hsame⟩, ⟨hdests, hsources⟩, hlink, hentry, htiles, hsplits, -⟩ := id hended
    refine ⟨_, hend, ⟨hnow, hcontrol, hclock.comp hsame (by simp) (by simp)⟩, hsplits, fun c => ?_,
      htiles, hdests, hsources, hlink, hentry⟩
    split
    · next d hd => exact hended.chan_of_bound hd
    · next hd => exact hended.chan_of_unbound hd
  · rw [hend, endSurvey_up (s := s.clock τ) hl, paid_of_owed (s := (s.clock τ).unmatch) ho]
    rfl
  · rw [hreport, report_down (s := s.clock τ) hl, paid_of_owed (s := s.clock τ) ho]
    rfl
  · rw [hend, endSurvey_down (s := s.clock τ) hl, paid_of_owed (s := s.clock τ) ho]
    rfl

end Sys2Proof.Machine
end

section
/-! O60: the salvo store (R5, R89, R96): what its law reads, and how takes come and go under it. -/

namespace Sys2Proof.Machine

/-! ### The takes that carry a tag -/

/-- What the salvo store reads of the takes of an entry: the tag and the ticket of each. -/
def Entry.claims (e : Entry) : List (Option SlotNo × Word16) :=
  (e.pending.map fun p => (p.tag, p.ticket)).toList ++ (e.next.map fun n => (n.tag, n.ticket)).toList

/-- How many takes of an entry carry the tag `k`. -/
def Entry.tags (e : Entry) (k : SlotNo) : Nat := e.claims.countP (·.1 = some k)

/-- What a take with a tag adds to the count of the slot `k`. -/
def tagCount (tag : Option SlotNo) (k : SlotNo) : Nat := if tag = some k then 1 else 0

theorem tags_eq (e : Entry) (k : SlotNo) :
    e.tags k = (e.pending.any (·.tag = some k)).toNat + (e.next.any (·.tag = some k)).toNat := by
  have hone {α : Type} (x : Option α) (tag : α → Option SlotNo) (ticket : α → Word16) :
      (x.map fun y => (tag y, ticket y)).toList.countP (·.1 = some k)
        = (x.any (tag · = some k)).toNat := by
    cases x with
    | none => rfl
    | some y => by_cases h : tag y = some k <;> simp [h]
  rw [Entry.tags, Entry.claims, List.countP_append]
  exact congrArg₂ _ (hone e.pending Pending.tag Pending.ticket) (hone e.next NextTake.tag NextTake.ticket)

theorem countP_add_countP {ι : Type} (p q : ι → Bool) (l : List ι) :
    l.countP p + l.countP q = (l.map fun i => (p i).toNat + (q i).toNat).sum := by
  induction l with
  | nil => rfl
  | cons i l ih =>
    rw [List.map_cons, List.sum_cons, ← ih, List.countP_cons, List.countP_cons]
    cases p i <;> cases q i <;> simp <;> omega

/-- The tagged takes of the map, entry by entry. -/
theorem tagged_eq_sum (s : State) (k : SlotNo) :
    s.tagged k = ((List.finRange 512).map fun d => (s.entry d).tags k).sum := by
  simp only [tags_eq]
  exact countP_add_countP _ _ _

section
variable {s t : State} {d : Dest}

theorem tagged_congr (h : ∀ c, (t.entry c).claims = (s.entry c).claims) (k : SlotNo) :
    t.tagged k = s.tagged k := by
  simp only [tagged_eq_sum, Entry.tags, h]

/-- Of two states that differ in one entry, the counts of tagged takes differ as the takes of the entry
do. -/
theorem tagged_exchange (h : ∀ c, c ≠ d → t.entry c = s.entry c) (k : SlotNo) :
    t.tagged k + (s.entry d).tags k = s.tagged k + (t.entry d).tags k := by
  have hperm := List.perm_cons_erase (List.mem_finRange d)
  have hrest : ((List.finRange 512).erase d).map (fun c => (t.entry c).tags k)
      = ((List.finRange 512).erase d).map fun c => (s.entry c).tags k :=
    List.map_congr_left fun c hc => by
      rw [h c fun hcd => (List.nodup_finRange 512).not_mem_erase (hcd ▸ hc)]
  rw [tagged_eq_sum, tagged_eq_sum, (hperm.map _).sum_eq, (hperm.map _).sum_eq, List.map_cons,
    List.map_cons, List.sum_cons, List.sum_cons, hrest]
  omega

end

/-! ### What the law reads -/

/-- A slot as the law has it: its list, whose destinations have the groups given, and its state. -/
structure Slot.Lawful (q : Slot) (group : Dest → Group) : Prop where
  once   : (q.entries.map (·.1)).Nodup
  length : q.entries.length ≤ 48
  group  : ∀ e ∈ q.entries, group e.1 = q.group
  empty  : q.state = .empty → q.entries = []
  firing : q.state = .firing ↔ 0 < q.outstanding

/-- The law of the salvo store within an event: only the slots in `P` are counted, and a take tagged
`owed` has left its entry and is not yet reported. -/
structure SalvoLawOf (P : SlotNo → Prop) (owed : Option SlotNo) (s : State) : Prop where
  slots   : ∀ k, (s.slot k).Lawful fun d => (s.entry d).group
  tickets : ∀ d, ∀ c ∈ (s.entry d).claims, c.1 ≠ none → c.2 = 0
  count   : ∀ k, P k → (s.slot k).outstanding = s.tagged k + tagCount owed k

theorem mem_claims {e : Entry} {c : Option SlotNo × Word16} : c ∈ e.claims
    ↔ (∃ p, e.pending = some p ∧ (p.tag, p.ticket) = c) ∨ ∃ n, e.next = some n ∧ (n.tag, n.ticket) = c := by
  simp [Entry.claims]

theorem tagCount_self (k : SlotNo) : tagCount (some k) k = 1 := if_pos rfl

theorem tagCount_of_ne {tag : Option SlotNo} {k : SlotNo} (h : tag ≠ some k) : tagCount tag k = 0 :=
  if_neg h

theorem tagCount_none (k : SlotNo) : tagCount none k = 0 := if_neg (Option.some_ne_none k).symm

/-- Between events every slot is counted, and nothing is owed. -/
theorem salvoLawOf_iff (s : State) : SalvoLawOf (fun _ => True) none s ↔ SalvoLaw s := by
  have hnone (k : SlotNo) : s.tagged k + tagCount none k = s.tagged k := by
    rw [tagCount_none, Nat.add_zero]
  constructor
  · rintro ⟨slots, tickets, count⟩
    exact ⟨fun k => (slots k).once, fun k => (slots k).length, fun k => (slots k).group,
      fun k => (slots k).empty, fun k => (count k trivial).trans (hnone k), fun k => (slots k).firing,
      fun d p hp => tickets d (p.tag, p.ticket) (mem_claims.2 (.inl ⟨p, hp, rfl⟩)),
      fun d n hn => tickets d (n.tag, n.ticket) (mem_claims.2 (.inr ⟨n, hn, rfl⟩))⟩
  · rintro ⟨once, length, group, empty, count, firing, pending, next⟩
    refine ⟨fun k => ⟨once k, length k, group k, empty k, firing k⟩, fun d c hc => ?_,
      fun k _ => (count k).trans (hnone k).symm⟩
    obtain ⟨p, hp, rfl⟩ | ⟨n, hn, rfl⟩ := mem_claims.1 hc
    · exact pending d p hp
    · exact next d n hn

section
variable {P : SlotNo → Prop} {owed : Option SlotNo} {s t : State}

/-- The law reads the slots, and of the map the groups, the tags and the tickets. -/
theorem SalvoLawOf.of_claims (hs : SalvoLawOf P owed s) (hq : t.salvos = s.salvos)
    (hg : ∀ d, (t.entry d).group = (s.entry d).group)
    (hc : ∀ d, (t.entry d).claims = (s.entry d).claims) : SalvoLawOf P owed t := by
  have hslot (k : SlotNo) : t.slot k = s.slot k := by simp only [State.slot, hq]
  refine ⟨fun k => ?_, fun d => ?_, fun k hk => ?_⟩
  · simpa only [hslot, hg] using hs.slots k
  · simpa only [hc] using hs.tickets d
  · simpa only [hslot, tagged_congr hc] using hs.count k hk

/-- The part holds neither takes nor slots. -/
def Part.storeless : Part → Bool
  | .map | .salvos => false
  | _ => true

theorem SalvoLawOf.of_same {ps : List Part} (hs : SalvoLawOf P owed s) (h : SameBut ps s t)
    (hp : ps.all Part.storeless = true) : SalvoLawOf P owed t := by
  have hmap : t.map = s.map := h .map fun hm => Bool.false_ne_true (List.all_eq_true.1 hp .map hm)
  have hsalvos : t.salvos = s.salvos := h .salvos fun hm =>
    Bool.false_ne_true (List.all_eq_true.1 hp .salvos hm)
  have hentry (d : Dest) : t.entry d = s.entry d := by simp only [State.entry, hmap]
  exact hs.of_claims hsalvos (fun d => by rw [hentry]) fun d => by rw [hentry]

/-- An entry is written whose takes differ by what is owed before and after. -/
theorem SalvoLawOf.setEntry (hs : SalvoLawOf P owed s) {d : Dest} {e : Entry} {owed' : Option SlotNo}
    (hg : e.group = (s.entry d).group) (ht : ∀ c ∈ e.claims, c.1 ≠ none → c.2 = 0)
    (hc : ∀ k, P k → (s.entry d).tags k + tagCount owed k = e.tags k + tagCount owed' k) :
    SalvoLawOf P owed' (s.setEntry d e) := by
  have hother (c : Dest) (h : c ≠ d) : (s.setEntry d e).entry c = s.entry c :=
    s.setEntry_entry_of_ne d e h
  have hgroup (c : Dest) : ((s.setEntry d e).entry c).group = (s.entry c).group := by
    by_cases h : c = d
    · rw [h, State.setEntry_entry_self, hg]
    · rw [hother c h]
  refine ⟨fun k => ?_, fun c => ?_, fun k hk => ?_⟩
  · simp only [hgroup]
    exact hs.slots k
  · by_cases h : c = d
    · rw [h, State.setEntry_entry_self]
      exact ht
    · rw [hother c h]
      exact hs.tickets c
  · have hexchange := tagged_exchange hother k
    have hcount := hs.count k hk
    have hbalance := hc k hk
    rw [State.setEntry_entry_self] at hexchange
    change (s.slot k).outstanding = _
    omega

/-- An entry is written whose takes have the same tags and tickets. -/
theorem SalvoLawOf.setEntry_same (hs : SalvoLawOf P owed s) {d : Dest} {e : Entry}
    (hg : e.group = (s.entry d).group) (hc : e.claims = (s.entry d).claims) :
    SalvoLawOf P owed (s.setEntry d e) :=
  hs.setEntry hg (hc ▸ hs.tickets d) fun k _ => by rw [Entry.tags, Entry.tags, hc]

/-- A slot is written. -/
theorem SalvoLawOf.setSlot (hs : SalvoLawOf P owed s) {k : SlotNo} {q : Slot} {Q : SlotNo → Prop}
    {owed' : Option SlotNo} (hq : q.Lawful fun d => (s.entry d).group)
    (hk : Q k → q.outstanding = s.tagged k + tagCount owed' k)
    (hne : ∀ j, j ≠ k → Q j → P j ∧ tagCount owed j = tagCount owed' j) :
    SalvoLawOf Q owed' (s.setSlot k q) := by
  refine ⟨fun j => ?_, hs.tickets, fun j hj => ?_⟩
  · by_cases h : j = k
    · rw [h, State.setSlot_slot_self]
      exact hq
    · rw [s.setSlot_slot_of_ne k q h]
      exact hs.slots j
  · change ((s.setSlot k q).slot j).outstanding = s.tagged j + _
    by_cases h : j = k
    · subst h
      rw [State.setSlot_slot_self]
      exact hk hj
    · obtain ⟨hP, howed⟩ := hne j h hj
      rw [s.setSlot_slot_of_ne k q h, hs.count j hP, howed]

/-! ### A take that has left its entry is reported (R60, R96) -/

theorem SalvoLawOf.accountTake {k : SlotNo} (hs : SalvoLawOf P (some k) s) (r : TakeResult)
    (deferred : Bool) : SalvoLawOf P none (s.accountTake k r deferred) := by
  obtain ⟨once, length, group, empty, firing⟩ := hs.slots k
  have hcounted {q : Slot} (ho : q.outstanding = (s.slot k).outstanding - 1)
      (hq : q.Lawful fun d => (s.entry d).group) : SalvoLawOf P none (s.setSlot k q) := by
    refine hs.setSlot hq (fun hk => ?_) fun j hj hP => ⟨hP, ?_⟩
    · rw [ho, hs.count k hk, tagCount_self, tagCount_none, Nat.add_sub_cancel, Nat.add_zero]
    · exact tagCount_of_ne fun h => hj (Option.some.inj h).symm
  unfold State.accountTake
  dsimp only
  split
  · next hlast =>
    have hdone := hcounted (q := { s.slot k with
      state := .armed, outstanding := (s.slot k).outstanding - 1,
      firing := (s.slot k).firing.map (·.count r deferred) }) rfl
      ⟨once, length, group, nofun, ⟨nofun, fun h => absurd hlast (Nat.ne_of_gt h)⟩⟩
    exact hdone.of_same (raise_same _ _) rfl
  · next hleft =>
    refine hcounted rfl ⟨once, length, group, empty, firing.trans ?_⟩
    change _ ↔ 0 < (s.slot k).outstanding - 1
    omega

theorem SalvoLawOf.reportTake {tag : Option SlotNo} (hs : SalvoLawOf P tag s) {ticket : Word16}
    (ht : tag ≠ none → ticket = 0) (d : Dest) (r : TakeResult) (deferred : Bool) :
    SalvoLawOf P none (s.reportTake d ticket tag r deferred) := by
  unfold State.reportTake
  split
  · next hticket =>
    obtain rfl : tag = none := by_contra fun h => hticket (ht h)
    exact hs.of_same (raise_same s _) rfl
  · split
    · exact hs.accountTake r deferred
    · exact hs

end

end Sys2Proof.Machine
end

section
/-! O60: takes that end and arrive, and a salvo that is fired (R47, R59, R61, R94). -/

namespace Sys2Proof.Machine

/-! ### Takes of the same tags and tickets -/

theorem claims_withPending (e : Entry) (p : Pending) :
    { e with pending := some p }.claims = (p.tag, p.ticket) :: { e with pending := none }.claims := rfl

theorem claims_of_pending {e : Entry} {p : Pending} (h : e.pending = some p) :
    e.claims = (p.tag, p.ticket) :: { e with pending := none }.claims := by
  rw [← claims_withPending, ← h]

/-- The next take stands last. -/
theorem claims_withNext (e : Entry) (n : NextTake) :
    { e with next := some n }.claims = { e with next := none }.claims ++ [(n.tag, n.ticket)] := by
  simp [Entry.claims]

theorem claims_of_next {e : Entry} {n : NextTake} (h : e.next = some n) :
    e.claims = { e with next := none }.claims ++ [(n.tag, n.ticket)] := by
  rw [← claims_withNext, ← h]

theorem tags_of_pending {e : Entry} {p : Pending} (h : e.pending = some p) (k : SlotNo) :
    e.tags k = { e with pending := none }.tags k + tagCount p.tag k := by
  rw [Entry.tags, claims_of_pending h, List.countP_cons, Entry.tags, tagCount]
  simp

theorem tags_of_next {e : Entry} {n : NextTake} (h : e.next = some n) (k : SlotNo) :
    e.tags k = { e with next := none }.tags k + tagCount n.tag k := by
  rw [Entry.tags, claims_of_next h, List.countP_append, Entry.tags, tagCount]
  simp [List.countP_cons]

section
variable {P : SlotNo → Prop} {owed : Option SlotNo} {s : State} {d : Dest}

/-- The pending take moves on, with its tag and its ticket. -/
theorem SalvoLawOf.setPending (hs : SalvoLawOf P owed s) {p q : Pending}
    (hp : (s.entry d).pending = some p) (hq : (q.tag, q.ticket) = (p.tag, p.ticket)) :
    SalvoLawOf P owed (s.setPending d q) :=
  hs.setEntry_same rfl (by rw [claims_withPending, claims_of_pending hp, hq])

/-- The pending take leaves its entry. -/
theorem SalvoLawOf.leave (hs : SalvoLawOf P none s) {p : Pending} (hp : (s.entry d).pending = some p) :
    SalvoLawOf P p.tag (s.setEntry d { s.entry d with pending := none }) := by
  refine hs.setEntry rfl (fun c hc => hs.tickets d c ?_) fun k _ => ?_
  · rw [claims_of_pending hp]
    exact List.mem_cons_of_mem _ hc
  · rw [tags_of_pending hp, tagCount_none, Nat.add_zero]

/-- The next take leaves its entry. -/
theorem SalvoLawOf.leaveNext (hs : SalvoLawOf P none s) {n : NextTake} (hn : (s.entry d).next = some n) :
    SalvoLawOf P n.tag (s.setEntry d { s.entry d with next := none }) := by
  refine hs.setEntry rfl (fun c hc => hs.tickets d c ?_) fun k _ => ?_
  · rw [claims_of_next hn]
    exact List.mem_append_left _ hc
  · rw [tags_of_next hn, tagCount_none, Nat.add_zero]

/-- A take is placed on a destination without a pending take; as far as its slot is counted, it is the
take that is owed. -/
theorem SalvoLawOf.placeHeld (hs : SalvoLawOf P owed s) (hp : (s.entry d).pending = none) {n : NextTake}
    (hn : n.tag ≠ none → n.ticket = 0) (ho : ∀ k, P k → tagCount owed k = tagCount n.tag k)
    (pl : Placement) : SalvoLawOf P none (s.placeHeld d n pl) := by
  have hbare : { s.entry d with pending := none } = s.entry d := by rw [← hp]
  have hset : SalvoLawOf P none (s.setEntry d { s.entry d with pending := some (heldTake n pl) }) := by
    refine hs.setEntry rfl (fun c hc => ?_) fun k hk => ?_
    · rw [claims_withPending, List.mem_cons] at hc
      obtain rfl | hc := hc
      · exact hn
      · exact hs.tickets d c (hbare ▸ hc)
    · rw [tags_of_pending (e := { s.entry d with pending := some (heldTake n pl) }) rfl, tagCount_none,
        ho k hk]
      exact congrArg (fun e : Entry => e.tags k + _) hbare.symm
  exact hset.of_same (announceDest_same _ d) rfl

theorem SalvoLawOf.endNext (hs : SalvoLawOf P none s) (d : Dest) (r : TakeResult) :
    SalvoLawOf P none (s.endNext d r) := by
  unfold State.endNext
  split
  · exact hs
  · next n hn =>
    exact (hs.leaveNext hn).reportTake (hs.tickets d (n.tag, n.ticket) (mem_claims.2 (.inr ⟨n, hn, rfl⟩)))
      d r false

/-- The next take takes the place of a pending take that has gone, or ends. -/
theorem SalvoLawOf.promote (hs : SalvoLawOf P none s) (hp : (s.entry d).pending = none) :
    SalvoLawOf P none (s.promote d) := by
  unfold State.promote
  split
  · exact hs
  · next n hn =>
    split
    · refine (hs.leaveNext hn).placeHeld ?_ ?_ (fun _ _ => rfl) _
      · rw [State.setEntry_entry_self]
        exact hp
      · exact hs.tickets d (n.tag, n.ticket) (mem_claims.2 (.inr ⟨n, hn, rfl⟩))
    · exact hs.endNext d _

theorem SalvoLawOf.takeEnded (hs : SalvoLawOf P none s) {p : Pending}
    (hp : (s.entry d).pending = some p) (r : TakeResult) :
    SalvoLawOf P none (s.takeEnded d p r) := by
  have hleft := hs.leave hp
  unfold State.takeEnded
  refine SalvoLawOf.reportTake (SalvoLawOf.of_same ?_ (announceDest_same _ d) rfl)
    (hs.tickets d (p.tag, p.ticket) (mem_claims.2 (.inl ⟨p, hp, rfl⟩))) d r p.deferred
  split
  · exact hleft.of_same (dropWaiting_same _ d) rfl
  · exact hleft

theorem SalvoLawOf.endPending (hs : SalvoLawOf P none s) (d : Dest) (r : TakeResult) :
    SalvoLawOf P none (s.endPending d r) := by
  cases hp : (s.entry d).pending with
  | none => rwa [State.endPending, hp]
  | some p =>
    have hended := hs.takeEnded hp r
    rw [endPending_eq hp]
    split
    · exact hended
    · exact hended.promote (by rw [entry_of_map (takeEnded_left hp r).map])

/-- A take arrives whose slot, if it has one, is not counted. -/
theorem SalvoLawOf.arrive (hs : SalvoLawOf P none s) {n : NextTake} (hn : n.tag ≠ none → n.ticket = 0)
    (ho : ∀ k, P k → n.tag ≠ some k) (d : Dest) (pl : Placement) :
    SalvoLawOf P none (s.arrive d n pl).2 := by
  have hcount (k : SlotNo) (hk : P k) : tagCount none k = tagCount n.tag k :=
    (tagCount_none k).trans (tagCount_of_ne (ho k hk)).symm
  unfold State.arrive
  split
  · next hp => exact hs.placeHeld hp hn hcount pl
  · next p hp =>
    split
    · rw [endPending_eq hp, if_pos rfl]
      exact (hs.takeEnded hp _).placeHeld (by rw [entry_of_map (takeEnded_left hp _).map]) hn hcount pl
    · have hended := hs.endNext d .superseded
      have hbare : { (s.endNext d .superseded).entry d with next := none }
          = (s.endNext d .superseded).entry d := by rw [endNext_entry_self]
      refine hended.setEntry rfl (fun c hc => ?_) fun k hk => ?_
      · rw [claims_withNext, List.mem_append, List.mem_singleton] at hc
        obtain hc | rfl := hc
        · exact hended.tickets d c (hbare ▸ hc)
        · exact hn
      · rw [tags_of_next (e := { (s.endNext d .superseded).entry d with next := some n }) rfl, ← hcount k hk]
        exact congrArg (fun e : Entry => e.tags k + _) hbare.symm

end

/-! ### A take arrives (R47) -/

/-- The pending take of an entry is in flight. -/
def Entry.flies (e : Entry) : Bool := e.pending.any fun p => p.phase = .sent ∨ p.phase = .overdue

/-- An entry in which a take has arrived: as the next take behind one in flight, or else as the pending
take. -/
def Entry.received (e : Entry) (n : NextTake) (pl : Placement) : Entry :=
  if e.flies then { e with next := some n } else { e with pending := some (heldTake n pl) }

/-- The report of the take that gives way to one that arrives: the next take behind one in flight, or
else the pending take. -/
def State.gaveWay (s : State) (d : Dest) : State :=
  if (s.entry d).flies then s.nextSuperseded d else s.superseded d

section
variable (s : State) (d : Dest) (n : NextTake) (pl : Placement)

/-- A take that arrives is queued behind one in flight, or placed. -/
theorem arrive_cases :
    ((s.entry d).flies = true ∧ s.arrive d n pl = (true, { s.nextSuperseded d with
        map := (s.setEntry d { s.entry d with next := some n }).map }))
      ∨ (s.entry d).flies = false ∧ ∃ t, s.arrive d n pl = (false, t) ∧ TakePlaced s t d n pl := by
  cases hf : (s.entry d).flies with
  | true =>
    obtain ⟨p, hp, hphase⟩ := (Option.any_eq_true _ _).1 hf
    have hflying : p.phase = .sent ∨ p.phase = .overdue := of_decide_eq_true hphase
    exact .inl ⟨rfl, arrive_queues hp hflying n pl⟩
  | false =>
    refine .inr ⟨rfl, arrive_places (fun p hp => ?_) n pl⟩
    have hphase : ¬ (p.phase = .sent ∨ p.phase = .overdue) := by
      simpa [Entry.flies, hp] using hf
    cases h : p.phase <;> simp_all

theorem arrive_fst : (s.arrive d n pl).1 = (s.entry d).flies := by
  obtain ⟨hf, ha⟩ | ⟨hf, t, ha, -⟩ := arrive_cases s d n pl <;> rw [ha, hf]

theorem arrive_map : (s.arrive d n pl).2.map = (s.setEntry d ((s.entry d).received n pl)).map := by
  obtain ⟨hf, ha⟩ | ⟨hf, t, ha, hplaced⟩ := arrive_cases s d n pl <;> rw [ha, Entry.received, hf]
  · rfl
  · exact hplaced.map

theorem arrive_accounts : (s.arrive d n pl).2.accounts = (s.gaveWay d).accounts := by
  obtain ⟨hf, ha⟩ | ⟨hf, t, ha, hplaced⟩ := arrive_cases s d n pl <;> rw [ha, State.gaveWay, hf]
  · rfl
  · exact hplaced.accounts

theorem arrive_entry_self : (s.arrive d n pl).2.entry d = (s.entry d).received n pl :=
  entry_of_map (arrive_map s d n pl)

theorem arrive_entry_of_ne {c : Dest} (h : c ≠ d) : (s.arrive d n pl).2.entry c = s.entry c :=
  (onlyEntry_of_map (arrive_map s d n pl)).2.2 c h

end

end Sys2Proof.Machine
end

section
/-! O60: the entries of a fire (R93, R94). -/

namespace Sys2Proof.Machine

/-! ### One entry -/

/-- The account of a fire after an entry that is refused. -/
def FireAccount.refuse (a : FireAccount) (v : Verdict) : FireAccount :=
  { a with refused := a.refused + 1, refusal := some (a.refusal.getD v) }

/-- The account of a fire after an entry that is accepted: queued behind a take in flight, or placed. -/
def FireAccount.accept (a : FireAccount) (d : Dest) (queued : Bool) : FireAccount :=
  if queued then { a with accepted := a.accepted + 1, queued := a.queued + 1 }
  else { a with accepted := a.accepted + 1, placed := a.placed + 1, dests := a.dests ++ [d] }

theorem FireAccount.accept_accepted (a : FireAccount) (d : Dest) (queued : Bool) :
    (a.accept d queued).accepted = a.accepted + 1 := by cases queued <;> rfl

/-- The take that an entry of a salvo asks for. -/
def salvoTake (k : SlotNo) (owner : PanelNo) (e : Dest × Source) : NextTake := ⟨e.2, owner, 0, some k⟩

section
variable {k : SlotNo} {owner : PanelNo} {pl : Placement} {a : FireAccount} {s : State}
  {e : Dest × Source}

theorem fireEntry_refused {v : Verdict} (h : s.accessCheck owner e.1 (some e.2) = some v) :
    fireEntry k owner pl (a, s) e = (a.refuse v, s) := by
  simp only [fireEntry, h]
  rfl

theorem fireEntry_accepted (h : s.accessCheck owner e.1 (some e.2) = none) :
    fireEntry k owner pl (a, s) e = (a.accept e.1 (s.entry e.1).flies,
      (s.arrive e.1 (salvoTake k owner e) pl).2) := by
  rw [← arrive_fst s e.1 (salvoTake k owner e) pl]
  simp only [fireEntry, h]
  change (match s.arrive e.1 (salvoTake k owner e) pl with
    | (true, s1) => _
    | (false, s1) => _) = _
  cases s.arrive e.1 (salvoTake k owner e) pl with
  | mk queued t => cases queued <;> rfl

end

/-! ### What an entry does to the count of the slot that fires -/

theorem tags_eq_zero {e : Entry} {k : SlotNo} : e.tags k = 0 ↔ ∀ c ∈ e.claims, c.1 ≠ some k := by
  simp [Entry.tags]

theorem reportTake_slot_of_ne {s : State} {k : SlotNo} {tag : Option SlotNo} (h : tag ≠ some k) (d : Dest)
    (ticket : Word16) (r : TakeResult) (deferred : Bool) :
    (s.reportTake d ticket tag r deferred).slot k = s.slot k := by
  unfold State.reportTake
  split
  · rfl
  · split
    · next _ j =>
      have hkj : k ≠ j := fun hkj => h (congrArg some hkj.symm)
      unfold State.accountTake
      dsimp only
      split
      · exact s.setSlot_slot_of_ne j _ hkj
      · exact s.setSlot_slot_of_ne j _ hkj
    · rfl

theorem gaveWay_slot {s : State} {d : Dest} {k : SlotNo} (h : (s.entry d).tags k = 0) :
    (s.gaveWay d).slot k = s.slot k := by
  have hclaims := tags_eq_zero.1 h
  unfold State.gaveWay
  split
  · unfold State.nextSuperseded
    split
    · rfl
    · next n hn =>
      exact reportTake_slot_of_ne (hclaims (n.tag, n.ticket) (mem_claims.2 (.inr ⟨n, hn, rfl⟩))) d _ _ _
  · unfold State.superseded
    split
    · rfl
    · next p hp =>
      exact reportTake_slot_of_ne (hclaims (p.tag, p.ticket) (mem_claims.2 (.inl ⟨p, hp, rfl⟩))) d _ _ _

theorem arrive_slot {s : State} {d : Dest} {k : SlotNo} (h : (s.entry d).tags k = 0) (n : NextTake)
    (pl : Placement) : (s.arrive d n pl).2.slot k = s.slot k := by
  obtain ⟨-, hslots⟩ := accounts_eq_iff.1 (arrive_accounts s d n pl)
  rw [← gaveWay_slot h, State.slot, State.slot, hslots]

theorem tags_received {e : Entry} {n : NextTake} {k : SlotNo} (hn : n.tag = some k) (h : e.tags k = 0)
    (pl : Placement) : (e.received n pl).tags k = 1 := by
  have hclaims := tags_eq_zero.1 h
  have hbare {b : Entry} (hb : ∀ c ∈ b.claims, c ∈ e.claims) : b.tags k = 0 :=
    tags_eq_zero.2 fun c hc => hclaims c (hb c hc)
  unfold Entry.received
  split
  · rw [tags_of_next rfl, hn, tagCount_self, hbare (fun c hc => ?_)]
    rw [Entry.claims, List.mem_append]
    exact .inl (by simpa [Entry.claims] using hc)
  · rw [tags_of_pending rfl, show (heldTake n pl).tag = some k from hn, tagCount_self,
      hbare (fun c hc => ?_)]
    rw [Entry.claims, List.mem_append]
    exact .inr (by simpa [Entry.claims] using hc)

/-- A salvo on its way through its entries: the takes accepted so far are those that carry its tag, and
those still to come find none there. -/
structure SalvoUnderFire (k : SlotNo) (q : Slot) (acc : FireAccount × State) (rest : List (Dest × Source)) :
    Prop where
  law   : SalvoLawOf (· ≠ k) none acc.2
  slot  : acc.2.slot k = q
  count : acc.2.tagged k = acc.1.accepted
  fresh : ∀ e ∈ rest, (acc.2.entry e.1).tags k = 0

section
variable {k : SlotNo} {q : Slot} {acc : FireAccount × State} {e : Dest × Source}
  {rest : List (Dest × Source)}

theorem SalvoUnderFire.next (h : SalvoUnderFire k q acc (e :: rest)) (he : ∀ x ∈ rest, x.1 ≠ e.1)
    (owner : PanelNo) (pl : Placement) :
    SalvoUnderFire k q (fireEntry k owner pl acc e) rest := by
  obtain ⟨a, s⟩ := acc
  obtain ⟨law, slot, count, fresh⟩ := h
  have hfresh := fresh e List.mem_cons_self
  have hrest : ∀ x ∈ rest, (s.entry x.1).tags k = 0 := fun x hx => fresh x (List.mem_cons_of_mem e hx)
  cases hc : s.accessCheck owner e.1 (some e.2) with
  | some v =>
    rw [fireEntry_refused hc]
    exact ⟨law, slot, count, hrest⟩
  | none =>
    rw [fireEntry_accepted hc]
    refine ⟨law.arrive (fun _ => rfl) (fun j hj hk => hj (Option.some.inj hk).symm) e.1 pl,
      (arrive_slot hfresh _ pl).trans slot, ?_, fun x hx => ?_⟩
    · have hexchange := tagged_exchange (fun c hcd =>
        arrive_entry_of_ne s e.1 (salvoTake k owner e) pl hcd) k
      rw [arrive_entry_self, tags_received rfl hfresh, hfresh, Nat.add_zero] at hexchange
      rw [FireAccount.accept_accepted, hexchange, count]
    · rw [arrive_entry_of_ne _ _ _ _ (he x hx)]
      exact hrest x hx

theorem SalvoUnderFire.all {l : List (Dest × Source)} (h : SalvoUnderFire k q acc l)
    (hl : (l.map (·.1)).Nodup) (owner : PanelNo) (pl : Placement) :
    SalvoUnderFire k q (l.foldl (fireEntry k owner pl) acc) [] := by
  induction l generalizing acc with
  | nil => exact h
  | cons e l ih =>
    rw [List.map_cons, List.nodup_cons] at hl
    refine ih (h.next (fun x hx hxe => hl.1 ?_) owner pl) hl.2
    exact hxe ▸ List.mem_map_of_mem hx

end

/-- Before the first entry of an armed slot no take carries its tag. -/
theorem SalvoLaw.underFire {s : State} (hs : SalvoLaw s) {k : SlotNo} (hk : (s.slot k).state = .armed) :
    SalvoUnderFire k (s.slot k) (FireAccount.start, s) (s.slot k).entries := by
  obtain ⟨slots, tickets, count⟩ := (salvoLawOf_iff s).2 hs
  have hidle : ¬ 0 < (s.slot k).outstanding := fun h => by
    have hfiring := (hs.firing k).2 h
    rw [hk] at hfiring
    exact nomatch hfiring
  have htagged : s.tagged k = 0 := by
    rw [← hs.count k]
    omega
  refine ⟨⟨slots, tickets, fun j _ => count j trivial⟩, rfl, htagged, fun e _ => ?_⟩
  rw [tagged_eq_sum, List.sum_eq_zero_iff] at htagged
  exact htagged _ (List.mem_map.2 ⟨e.1, List.mem_finRange _, rfl⟩)

end Sys2Proof.Machine
end

section
/-! O60: every command keeps the salvo store. -/

namespace Sys2Proof.Machine

/-! ### Lawful slots -/

theorem Slot.reset_lawful (group : Dest → Group) : Slot.reset.Lawful group :=
  ⟨List.nodup_nil, Nat.zero_le _, fun _ h => (List.not_mem_nil h).elim, fun _ => rfl,
    ⟨nofun, fun h => absurd h (Nat.lt_irrefl 0)⟩⟩

namespace Slot.Lawful

variable {q : Slot} {group : Dest → Group} (h : q.Lawful group)
include h

theorem idle (hq : q.state ≠ .firing) : q.outstanding = 0 := by
  have hnone := mt h.firing.2 hq
  omega

/-- A slot that is not FIRING takes another state that is neither EMPTY nor FIRING. -/
theorem restate (hq : q.state ≠ .firing) {state : SlotState} (he : state ≠ .empty)
    (hf : state ≠ .firing) : { q with state := state }.Lawful group where
  once := h.once
  length := h.length
  group := h.group
  empty h := absurd h he
  firing := ⟨fun h => absurd h hf, fun ho => absurd (h.idle hq) (Nat.ne_of_gt ho)⟩

/-- The source of one destination is replaced in its place. -/
theorem replace {d : Dest} (x : Source) (hd : group d = q.group) (hq : q.state = .opened) :
    { q with entries := replaceEntry q.entries d x }.Lawful group where
  once := by
    have hsame : (replaceEntry q.entries d x).map (·.1) = q.entries.map (·.1) := by
      rw [replaceEntry, List.map_map]
      refine List.map_congr_left fun p _ => ?_
      by_cases hp : p.1 = d <;> simp [hp]
    exact hsame ▸ h.once
  length := by
    rw [replaceEntry, List.length_map]
    exact h.length
  group e he := by
    obtain ⟨p, hp, rfl⟩ := List.mem_map.1 he
    split
    · exact hd
    · exact h.group p hp
  empty he := absurd (hq.symm.trans he) nofun
  firing := h.firing

/-- A destination that does not stand in the list joins it. -/
theorem append {d : Dest} {x : Source} (hnew : entryPlace q.entries d = none) (hroom : q.entries.length < 48)
    (hd : group d = q.group) (hq : q.state = .opened) :
    { q with entries := q.entries ++ [(d, x)] }.Lawful group where
  once := by
    have hfresh : d ∉ q.entries.map (·.1) := by
      rw [List.mem_map]
      rintro ⟨p, hp, rfl⟩
      simpa using List.findIdx?_eq_none_iff.1 hnew p hp
    rw [List.map_append, List.nodup_append]
    exact ⟨h.once, List.nodup_singleton d, fun a ha b hb => by
      obtain rfl := List.mem_singleton.1 hb
      exact ne_of_mem_of_not_mem ha hfresh⟩
  length := by
    rw [List.length_append]
    exact hroom
  group e he := by
    obtain he | he := List.mem_append.1 he
    · exact h.group e he
    · rw [List.mem_singleton.1 he]
      exact hd
  empty he := absurd (hq.symm.trans he) nofun
  firing := h.firing

/-- Some entries leave the list. -/
theorem filter (p : Dest × Source → Bool) : { q with entries := q.entries.filter p }.Lawful group where
  once := h.once.sublist (List.filter_sublist.map _)
  length := (List.length_filter_le _ _).trans h.length
  group e he := h.group e (List.mem_of_mem_filter he)
  empty he := by rw [h.empty he, List.filter_nil]
  firing := h.firing

/-- A fire leaves the slot FIRING when it has accepted a take. -/
theorem fired (f : Firing) : (q.fired f).Lawful group where
  once := h.once
  length := h.length
  group := h.group
  empty he := by
    change (if 0 < f.accepted then SlotState.firing else .armed) = .empty at he
    split at he <;> exact nomatch he
  firing := by
    change (if 0 < f.accepted then SlotState.firing else .armed) = .firing ↔ 0 < f.accepted
    split <;> simp [*]

end Slot.Lawful

/-! ### What the law reads -/

theorem SalvoLaw.of_same {ps : List Part} {s t : State} (hs : SalvoLaw s) (h : SameBut ps s t)
    (hp : ps.all Part.storeless = true) : SalvoLaw t :=
  (salvoLawOf_iff t).1 (((salvoLawOf_iff s).2 hs).of_same h hp)

/-- The law reads the slots, and of the map the groups, the tags and the tickets. -/
theorem SalvoLaw.of_claims {s t : State} (hs : SalvoLaw s) (hq : t.salvos = s.salvos)
    (he : ∀ d, (t.entry d).group = (s.entry d).group ∧ (t.entry d).claims = (s.entry d).claims) :
    SalvoLaw t :=
  (salvoLawOf_iff t).1 (((salvoLawOf_iff s).2 hs).of_claims hq (fun d => (he d).1) fun d => (he d).2)

/-- With every slot at its reset values and no take tagged, the law holds. -/
theorem salvoLaw_of_untagged {s : State} (hc : ∀ d, ∀ c ∈ (s.entry d).claims, c.1 = none)
    (hq : ∀ k, s.slot k = Slot.reset) : SalvoLaw s := by
  refine (salvoLawOf_iff s).1 ⟨fun k => hq k ▸ Slot.reset_lawful _,
    fun d c hm h => absurd (hc d c hm) h, fun k _ => ?_⟩
  have htags (d : Dest) : (s.entry d).tags k = 0 :=
    tags_eq_zero.2 fun c hm => hc d c hm ▸ (Option.some_ne_none k).symm
  have htagged : s.tagged k = 0 := by
    rw [tagged_eq_sum]
    refine List.sum_eq_zero fun x hx => ?_
    obtain ⟨d, -, rfl⟩ := List.mem_map.1 hx
    exact htags d
  rw [hq, htagged, tagCount_none]
  rfl

namespace SalvoLaw

variable {s : State} (hs : SalvoLaw s)
include hs

/-! ### Salvo slots -/

/-- A slot is rewritten with as many takes outstanding. -/
theorem setSlot {k : SlotNo} {q : Slot} (hq : q.Lawful fun d => (s.entry d).group)
    (ho : q.outstanding = (s.slot k).outstanding) : SalvoLaw (s.setSlot k q) := by
  have hlaw := (salvoLawOf_iff s).2 hs
  exact (salvoLawOf_iff _).1 (hlaw.setSlot hq (fun _ => ho.trans (hlaw.count k trivial))
    fun _ _ _ => ⟨trivial, rfl⟩)

theorem slot (k : SlotNo) : (s.slot k).Lawful fun d => (s.entry d).group :=
  ((salvoLawOf_iff s).2 hs).slots k

theorem serveSalvoOpen (o : Order) : SalvoLaw (Machine.serveSalvoOpen o s).state := by
  unfold Machine.serveSalvoOpen
  split
  · next k g p _ _ _ =>
    have hlawful := hs.slot k
    dsimp only
    split
    · next hstate =>
      have hidle := hlawful.idle (by simp [hstate])
      exact hs.setSlot ⟨List.nodup_nil, Nat.zero_le _, fun _ h => (List.not_mem_nil h).elim, nofun,
        ⟨nofun, fun h => absurd hidle (Nat.ne_of_gt h)⟩⟩ rfl
    · next hstate => exact hs.setSlot (hlawful.restate (by simp [hstate]) nofun nofun) rfl
    · exact hs
    · exact hs
  · exact hs

theorem serveSalvoPut (o : Order) : SalvoLaw (Machine.serveSalvoPut o s).state := by
  unfold Machine.serveSalvoPut
  split
  · next k d x _ _ _ =>
    have hlawful := hs.slot k
    dsimp only
    split
    · exact hs
    · next hopen =>
      split
      · exact hs
      · next hgroup =>
        have hgroup : (s.entry d).group = (s.slot k).group := not_not.1 hgroup
        have hopened : (s.slot k).state = .opened := not_not.1 hopen
        split
        · exact hs.setSlot (hlawful.replace x hgroup hopened) rfl
        · next hnew =>
          split
          · exact hs
          · next hroom =>
            exact hs.setSlot (hlawful.append hnew (Nat.lt_of_not_le hroom) hgroup hopened) rfl
  · exact hs

theorem serveSalvoDrop (o : Order) : SalvoLaw (Machine.serveSalvoDrop o s).state := by
  unfold Machine.serveSalvoDrop
  split
  · next k d _ _ =>
    dsimp only
    split
    · exact hs
    · split
      · exact hs
      · exact hs.setSlot ((hs.slot k).filter _) rfl
  · exact hs

theorem serveSalvoArm (o : Order) : SalvoLaw (Machine.serveSalvoArm o s).state := by
  unfold Machine.serveSalvoArm
  split
  · exact hs
  · next k _ =>
    dsimp only
    split
    · next h => exact hs.setSlot ((hs.slot k).restate (by simp [h.1]) nofun nofun) rfl
    · exact hs

theorem serveSalvoClear (o : Order) : SalvoLaw (Machine.serveSalvoClear o s).state := by
  unfold Machine.serveSalvoClear
  split
  · exact hs
  · next k _ =>
    split
    · exact hs
    · exact hs
    · next hstate => exact hs.setSlot (Slot.reset_lawful _) ((hs.slot k).idle (by simp [hstate])).symm
    · next hstate => exact hs.setSlot (Slot.reset_lawful _) ((hs.slot k).idle (by simp [hstate])).symm

/-! ### Entries, and the events on the control line -/

theorem setEntry {d : Dest} {e : Entry} (hg : e.group = (s.entry d).group)
    (hc : e.claims = (s.entry d).claims) : SalvoLaw (s.setEntry d e) :=
  (salvoLawOf_iff _).1 (((salvoLawOf_iff s).2 hs).setEntry_same hg hc)

theorem setPending {d : Dest} {p q : Pending} (hp : (s.entry d).pending = some p)
    (hq : (q.tag, q.ticket) = (p.tag, p.ticket)) : SalvoLaw (s.setPending d q) :=
  (salvoLawOf_iff _).1 (((salvoLawOf_iff s).2 hs).setPending hp hq)

theorem serveIf {act : Order → State → Answer}
    (ha : ∀ {u : State} o, SalvoLaw u → SalvoLaw (act o u).state) (τ : Nat) (mine : Order → Bool) :
    SalvoLaw (s.serveIf τ mine act) := by
  unfold State.serveIf
  split
  · split
    · exact hs
    · next o _ _ =>
      split
      · have hdesk := (hs.of_same (clock_same s τ) rfl).of_same (beginServing_same _ o) rfl
        exact (ha o hdesk).of_same (finishServing_same _ _ _ _) rfl
      · exact hs
  · exact hs

theorem serve {act : Order → State → Answer}
    (ha : ∀ {u : State} o, SalvoLaw u → SalvoLaw (act o u).state) (τ : Nat) (code : Byte) :
    SalvoLaw (s.serve τ code act) :=
  hs.serveIf (fun o hu => ifFormed_keeps ha o hu) τ _

theorem event {f : State → State} (hf : ∀ {u : State}, SalvoLaw u → SalvoLaw (f u)) (τ : Nat) :
    SalvoLaw (s.event τ f) := by
  unfold State.event
  split
  · exact hs
  · exact (hf (hs.of_same (clock_same s τ) rfl)).of_same (flushHigh_same _) rfl

theorem writeSource (d : Dest) (x : Option Source) (k : ChangeCause) : SalvoLaw (s.writeSource d x k) := by
  unfold State.writeSource
  dsimp only
  split
  · exact hs
  · have hset := hs.setEntry (d := d) (e := { s.entry d with source := x }) rfl rfl
    exact hset.of_same (sourceChanged_same _ d k _ x) rfl

theorem setSuspect (d : Dest) (v : Bool) : SalvoLaw (s.setSuspect d v) := by
  unfold State.setSuspect
  split
  · exact hs
  · have hset := hs.setEntry (d := d) (e := { s.entry d with suspect := v }) rfl rfl
    exact hset.of_same (announceDest_same _ d) rfl

theorem setLock (d : Dest) (v : Option PanelNo) : SalvoLaw (s.setLock d v) := by
  unfold State.setLock
  split
  · exact hs
  · have hset := hs.setEntry (d := d) (e := { s.entry d with lock := v }) rfl rfl
    exact hset.of_same (announceDest_same _ d) rfl

theorem setProtect (d : Dest) (v : Level) : SalvoLaw (s.setProtect d v) := by
  unfold State.setProtect
  split
  · exact hs
  · have hset := hs.setEntry (d := d) (e := { s.entry d with protect := v }) rfl rfl
    exact hset.of_same (announceDest_same _ d) rfl

/-! ### Takes -/

theorem endNext (d : Dest) (r : TakeResult) : SalvoLaw (s.endNext d r) :=
  (salvoLawOf_iff _).1 (((salvoLawOf_iff s).2 hs).endNext d r)

theorem endPending (d : Dest) (r : TakeResult) : SalvoLaw (s.endPending d r) :=
  (salvoLawOf_iff _).1 (((salvoLawOf_iff s).2 hs).endPending d r)

theorem requestToken (d : Dest) : SalvoLaw (s.requestToken d) := by
  cases hp : (s.entry d).pending with
  | none => rwa [State.requestToken, hp]
  | some p =>
    cases hk : s.freeTokens with
    | nil =>
      rw [requestToken_queues hp hk]
      exact (hs.setPending (q := p.asked s.now none) hp rfl).of_same (withLink_same _ _) rfl
    | cons t ts =>
      rw [requestToken_grants hp hk]
      have hlent := hs.of_same (setToken_same s t .inUse) rfl
      exact (hlent.setPending (q := p.asked s.now (some t)) hp rfl).of_same (sendMatrix_same _ _) rfl

theorem dispatchDue (ds : List Dest) : SalvoLaw (s.dispatchDue ds) :=
  dispatchDue_keeps (fun d _ hu => hu.requestToken d) ds hs

theorem grantWaiting (d : Dest) (t : Token) : SalvoLaw (s.grantWaiting d t) := by
  unfold State.grantWaiting
  split
  · exact hs
  · next p hp =>
    have hset := hs.setPending (q := { p with
      phase := .sent, token := some t, instant := some s.now, deferred := true,
      landing := s.grantedLanding (s.entry d).group }) hp rfl
    exact hset.of_same (sendMatrix_same _ _) rfl

theorem freeToken (t : Token) : SalvoLaw (s.freeToken t) := by
  unfold State.freeToken
  split
  · exact hs.of_same (setToken_same s t _) rfl
  · exact ((hs.of_same (setToken_same s t .inUse) rfl).of_same (withLink_same _ _) rfl).grantWaiting _ t

theorem timeOut (d : Dest) : SalvoLaw (s.timeOut d) := by
  unfold State.timeOut
  split
  · exact hs
  · have hsuspect := hs.setSuspect d true
    refine endPending (of_same ?_ (logSuspect_same _ d) rfl) d _
    split
    · exact hsuspect
    · exact hsuspect.of_same (setToken_same _ _ _) rfl

theorem treatTake (b : Boundary) (d : Dest) : SalvoLaw (s.treatTake b d) := by
  unfold State.treatTake
  split
  · exact hs
  · next p hp =>
    have hmoved {q : Pending} (hq : (q.tag, q.ticket) = (p.tag, p.ticket)) := hs.setPending hp hq
    split
    · split
      · exact hmoved rfl
      · exact hmoved rfl
    · exact hmoved rfl
    · split
      · exact hmoved rfl
      · exact hmoved rfl
    · split
      · exact hs.timeOut d
      · exact hmoved rfl

theorem takesAtBoundary (b : Boundary) : SalvoLaw (s.takesAtBoundary b) := by
  unfold State.takesAtBoundary
  refine foldl_keeps (fun d hu => ?_) _ (foldl_keeps (fun d hu => hu.treatTake b d) _ hs)
  split
  · exact hu.requestToken d
  · exact hu

theorem serveTake (o : Order) : SalvoLaw (Machine.serveTake o s).state := by
  unfold Machine.serveTake
  split
  · next d x p _ _ _ =>
    split
    · exact hs
    · have harrive : SalvoLaw (s.arrive d ⟨x, p, o.ticket, none⟩ (s.placement (s.entry d).group)).2 :=
        (salvoLawOf_iff _).1 (((salvoLawOf_iff s).2 hs).arrive (fun h => absurd rfl h)
          (fun _ _ => (Option.some_ne_none _).symm) d _)
      dsimp only
      split <;> rename_i heq <;> rw [heq] at harrive
      · exact harrive
      · exact harrive.dispatchDue [d]
  · exact hs

/-- The slot that fires counts the takes accepted, and only then is it counted itself. -/
theorem fire (k : SlotNo) : SalvoLaw (s.fire k).state := by
  unfold State.fire
  dsimp only
  split
  · exact hs
  · next harmed =>
    split
    · exact hs
    · split
      · exact hs
      · obtain ⟨law, slot, count, -⟩ := (hs.underFire (not_not.1 harmed)).all (hs.once k)
          (s.slot k).owner (s.placement (s.slot k).group)
        generalize (s.slot k).entries.foldl (Machine.fireEntry k (s.slot k).owner
          (s.placement (s.slot k).group)) (FireAccount.start, s) = acc at law slot count
        obtain ⟨a, u⟩ := acc
        refine dispatchDue ((salvoLawOf_iff _).1 (law.setSlot ?_ (fun _ => ?_) fun j hj _ => ⟨hj, rfl⟩)) _
        · exact (law.slots k).fired _
        · rw [count, tagCount_none]
          rfl

end SalvoLaw

end Sys2Proof.Machine
end

section
/-! O60: the reports, the boundaries, the trigger inputs and the orders keep the salvo store, and so does
every command. -/

namespace Sys2Proof.Machine

theorem untagged_claims {e : Entry} {c : Option SlotNo × Word16} (h : c ∈ e.untagged.claims) :
    c.1 = none := by
  obtain ⟨p, hp, rfl⟩ | ⟨n, hn, rfl⟩ := mem_claims.1 h
  · obtain ⟨p, -, rfl⟩ := Option.map_eq_some_iff.1 hp
    rfl
  · obtain ⟨n, -, rfl⟩ := Option.map_eq_some_iff.1 hn
    rfl

namespace SalvoLaw

variable {s : State} (hs : SalvoLaw s)
include hs

/-! ### The matrix link -/

theorem cancelTakes (d : Dest) : SalvoLaw (s.cancelTakes d) := (hs.endPending d _).endNext d _

theorem linkDown (k : LinkCause) : SalvoLaw (s.linkDown k) := by
  unfold State.linkDown
  split
  · exact hs
  · exact (hs.of_same (withLink_same s { s.link with queue := [] }) rfl).of_same (setLink_same _ _ _) rfl
  · have hcancelled : SalvoLaw (s.setLink .down k).cancelAll :=
      foldl_keeps (fun d hu => hu.cancelTakes d) _ (hs.of_same (setLink_same s .down k) rfl)
    exact hcancelled.of_same (withLink_same _ _) rfl

theorem resetLink : SalvoLaw s.resetLink := by
  have hdown := (hs.linkDown .blockReset).of_same
    (withLink_same _ { (s.linkDown .blockReset).link with unmatched := 0 }) rfl
  unfold State.resetLink
  dsimp only
  split
  · exact hdown.of_same (startSurvey_same _) rfl
  · exact hdown

theorem loseCarrier : SalvoLaw s.loseCarrier :=
  linkDown (hs.of_same (withLink_same s _) rfl) .carrierLost

theorem unmatch : SalvoLaw s.unmatch := hs.of_same (withLink_same s _) rfl

theorem applyMatched (d : Dest) (x : Source) (t : Token) (held : Nat) :
    SalvoLaw (s.applyMatched d x t held) := by
  unfold State.applyMatched
  split
  · exact hs
  · next p _ =>
    have hmeasured := (hs.freeToken t).of_same
      (withSched_same _ ((s.freeToken t).measure p held).sched) rfl
    exact (((hmeasured.writeSource d (some x) .cut).setSuspect d false).endPending d _).dispatchDue [d]

theorem applyForeign (d : Dest) (x : Source) (t : Byte) (b : Bool) : SalvoLaw (s.applyForeign d x t b) := by
  have hwritten := (hs.writeSource d (some x) .foreign).setSuspect d false
  unfold State.applyForeign
  dsimp only
  split
  · exact hwritten
  · exact hwritten.of_same (raise_same _ _) rfl

theorem upReport (r : Report) : SalvoLaw (s.upReport r) := by
  unfold State.upReport
  split
  · split
    · exact hs.unmatch
    · split
      · exact hs.applyMatched _ _ _ _
      · exact (hs.freeToken _).applyForeign _ _ _ _
      · exact hs.applyForeign _ _ _ _
      · exact hs.unmatch.applyForeign _ _ _ _
  · exact hs.unmatch

theorem report (r : Report) : SalvoLaw (s.report r) := by
  unfold State.report
  split
  · exact hs
  · unfold State.surveyReport
    split
    · exact (hs.writeSource _ _ _).setSuspect _ _
    · exact hs.unmatch
  · exact hs.upReport r

theorem clearSource (d : Dest) : SalvoLaw (s.clearSource d) := by
  have hset := hs.setEntry (d := d) (e := { s.entry d with source := none }) rfl rfl
  exact hset.of_same (sourceShown_same _ d _ _) rfl

theorem clearUndeclared : SalvoLaw s.clearUndeclared :=
  (foldl_keeps (f := State.clearSource) (fun d hu => hu.clearSource d) _ hs).of_same
    (splitLost_same _ _) rfl

theorem endSurvey (a b : Nat) : SalvoLaw (s.endSurvey a b) := by
  unfold State.endSurvey
  split
  · exact hs
  · exact hs.unmatch
  · have hdeclared : SalvoLaw { s with map := { s.map with
        dests := clamp 1 512 a, sources := clamp 1 1024 b } } :=
      hs.of_claims rfl fun _ => ⟨rfl, rfl⟩
    exact hdeclared.clearUndeclared.of_same (setLink_same _ _ _) rfl

theorem matrixBody (body : List Byte) : SalvoLaw (s.matrixBody body) := by
  unfold State.matrixBody
  split
  · exact hs.report _
  · split
    · exact hs.endSurvey _ _
    · exact hs.unmatch

theorem matrixByte (b : Byte) : SalvoLaw (s.matrixByte b) := by
  have htaken := hs.of_same
    (withLink_same s { s.link with receiver := (receiverTake s.link.receiver b).1 }) rfl
  unfold State.matrixByte
  dsimp only
  split
  · exact htaken
  · exact htaken.unmatch
  · exact (htaken.matrixBody _).of_same (flushHigh_same _) rfl

theorem endMatrixGap : SalvoLaw s.endMatrixGap := by
  unfold State.endMatrixGap
  split
  · exact hs.of_same (matrixGap_same s) rfl
  · exact hs

theorem matrixBytes (bytes : List Byte) : SalvoLaw (s.matrixBytes bytes) := by
  unfold State.matrixBytes
  split
  · exact hs
  · exact foldl_keeps (fun b hu => hu.matrixByte b) bytes
      (hs.endMatrixGap.of_same (withLink_same _ _) rfl)

theorem wholeMessage {f : State → State} (hf : ∀ {u : State}, SalvoLaw u → SalvoLaw (f u)) (τ : Nat) :
    SalvoLaw (s.wholeMessage τ f) := by
  unfold State.wholeMessage
  split
  · exact hs.event (fun hu => hf hu.endMatrixGap) τ
  · exact hs

/-! ### Trigger inputs -/

theorem edgeAct (r : Trigger) (rising : Bool) : SalvoLaw (s.edgeAct r rising).state := by
  unfold State.edgeAct
  split
  · exact hs.fire _
  · exact hs.of_same (recStart_same s _ _) rfl
  · exact hs.of_same (recStop_same s _ _) rfl
  · split
    · exact hs.of_same (recStart_same s _ _) rfl
    · exact hs.of_same (recStop_same s _ _) rfl
  · exact hs

theorem qualify (i : InputNo) : SalvoLaw (s.qualify i) := by
  have hacted := (edgeAct (hs.of_same (setTrig_same s i { s.trig i with
    level := (s.trig i).raw, interval := none }) rfl) { s.trig i with
      level := (s.trig i).raw, interval := none } (s.trig i).raw).of_same (flushHigh_same _) rfl
  unfold State.qualify
  dsimp only
  split
  · exact hacted.of_same (raise_same _ _) rfl
  · exact hacted

theorem startInterval (i : InputNo) : SalvoLaw (s.startInterval i) := by
  have hstarted := hs.of_same (setTrig_same s i { s.trig i with
    interval := some ⟨s.now, (s.trig i).q.toNat⟩ }) rfl
  unfold State.startInterval
  dsimp only
  split
  · exact hstarted.qualify i
  · exact hstarted

theorem rawChange (i : InputNo) (b : Bool) : SalvoLaw (s.rawChange i b) := by
  have hraw := hs.of_same (setTrig_same s i { s.trig i with raw := b }) rfl
  unfold State.rawChange
  dsimp only
  split
  · exact hraw.of_same (setTrig_same _ i _) rfl
  · split
    · exact hraw.startInterval i
    · exact hraw

/-! ### Reference groups -/

theorem handOn (b : Boundary) (order : FollowerOrder) : SalvoLaw (s.handOn b order) := by
  have ht {u : State} (hu : SalvoLaw u) := hu.takesAtBoundary b
  have hw {u : State} (hu : SalvoLaw u) := hu.of_same (wallsAtBoundary_same u b.group b.frame) rfl
  have hr {u : State} (hu : SalvoLaw u) := hu.of_same (recordersAtBoundary_same u b.group) rfl
  cases order
  · exact hr (hw (ht hs))
  · exact hw (hr (ht hs))
  · exact hr (ht (hw hs))
  · exact ht (hr (hw hs))
  · exact hw (ht (hr hs))
  · exact ht (hw (hr hs))

theorem boundary (g : Group) (time : Nat) (state : RefState) (p : Nat) (en : Bool) (k : Option RefKind)
    (order : FollowerOrder) : SalvoLaw (s.boundary g time state p en k order) := by
  unfold State.boundary
  dsimp only
  split
  · exact hs
  · exact ((hs.of_same (setGrp_same s g _) rfl).of_same (raiseRef_same _ g k) rfl).handOn _ order

theorem expireTolerance (g : Group) (order : FollowerOrder) : SalvoLaw (s.expireTolerance g order) :=
  (hs.of_same (clock_same s _) rfl).boundary g _ _ _ _ _ order

theorem freewheel (g : Group) (order : FollowerOrder) : SalvoLaw (s.freewheel g order) :=
  (hs.of_same (clock_same s _) rfl).boundary g _ _ _ _ _ order

theorem edge (g : Group) (order : FollowerOrder) : SalvoLaw (s.edge g order) := by
  unfold State.edge State.edgeLocked State.recapture
  dsimp only
  split
  · exact hs
  · split <;> exact hs.boundary g _ _ _ _ _ order
  · split
    · exact hs.boundary g _ _ _ _ _ order
    · exact (hs.of_same (setGrp_same s g _) rfl).of_same (raiseRef_same _ g _) rfl

theorem expireBefore (τ : Nat) (g : Group) (order : FollowerOrder) :
    SalvoLaw (s.expireBefore τ g order) := by
  unfold State.expireBefore
  dsimp only
  split
  · exact hs.event (fun hu => hu.expireTolerance g order) _
  · exact hs

theorem serveRefSet (order : FollowerOrder) (o : Order) : SalvoLaw (Machine.serveRefSet order o s).state := by
  have hgrp (g : Group) (r : GroupRec) := hs.of_same (setGrp_same s g r) rfl
  unfold Machine.serveRefSet
  split
  · split
    · exact boundary (hgrp _ _) _ _ _ _ _ _ order
    · exact hgrp _ _
  · exact hs

/-! ### The orders that write entries, and the block resets -/

/-- The group of a destination is not changed while a slot names the destination (R19). -/
theorem writeClass {d : Dest} {c : DestClass} {g : Group}
    (h : ¬ (g ≠ (s.entry d).group ∧ s.inUse d = true)) :
    SalvoLaw (s.setEntry d { s.entry d with cls := c, group := g }) := by
  by_cases hg : g = (s.entry d).group
  · exact hs.setEntry hg rfl
  · have hfree : ∀ k, ∀ e ∈ (s.slot k).entries, e.1 ≠ d := fun k e he hed => h ⟨hg, (inUse_iff s d).2
      (.inr (.inr (.inl ⟨k, fun hk => List.not_mem_nil (hs.empty k hk ▸ he), e, he, hed⟩)))⟩
    have hclaims (b : Dest) :
        ((s.setEntry d { s.entry d with cls := c, group := g }).entry b).claims = (s.entry b).claims := by
      rw [State.setEntry_entry]
      split
      · next hb => rw [hb]; rfl
      · rfl
    obtain ⟨slots, tickets, count⟩ := (salvoLawOf_iff s).2 hs
    refine (salvoLawOf_iff _).1 ⟨fun k => ?_, fun b => ?_, fun k _ => ?_⟩
    · obtain ⟨once, length, group, empty, firing⟩ := slots k
      refine ⟨once, length, fun e he => ?_, empty, firing⟩
      rw [s.setEntry_entry_of_ne d _ (hfree k e he)]
      exact group e he
    · rw [hclaims]
      exact tickets b
    · rw [tagged_congr hclaims]
      exact count k trivial

theorem serveDestSet (o : Order) : SalvoLaw (Machine.serveDestSet o s).state := by
  unfold Machine.serveDestSet
  split
  · next d c g _ _ _ =>
    dsimp only
    split
    · exact hs
    · next h =>
      have hset := hs.writeClass (c := c) h
      split
      · exact hset
      · exact hset.of_same (tallyClass_same _ _ _ _) rfl
  · exact hs

theorem serveLock (o : Order) : SalvoLaw (Machine.serveLock o s).state := by
  unfold Machine.serveLock
  split
  · split
    · exact hs
    · exact hs.setLock _ _
  · exact hs

theorem serveUnlock (o : Order) : SalvoLaw (Machine.serveUnlock o s).state := by
  unfold Machine.serveUnlock
  split
  · split
    · exact hs
    · split
      · exact hs.setLock _ _
      · exact hs
  · exact hs

theorem serveProtect (o : Order) : SalvoLaw (Machine.serveProtect o s).state := by
  unfold Machine.serveProtect
  split
  · split
    · exact hs
    · exact hs.setProtect _ _
  · exact hs

theorem unbindPair (k : TileKind) (p : WallNo × TileNo) : SalvoLaw (s.unbindPair k p) := by
  cases k with
  | dest d => exact hs.setEntry rfl rfl
  | invalid => exact hs
  | fixed x => exact hs

theorem bindPair (k : TileKind) (p : WallNo × TileNo) : SalvoLaw (s.bindPair k p) := by
  cases k with
  | dest d => exact hs.setEntry rfl rfl
  | invalid => exact hs
  | fixed x => exact hs

theorem serveTileSet (o : Order) : SalvoLaw (Machine.serveTileSet o s).state := by
  unfold Machine.serveTileSet
  split
  · next w i k _ _ _ =>
    split
    · exact hs
    · have hbound : SalvoLaw (if (s.tile w i).kind = k then s
          else (s.unbindPair (s.tile w i).kind (w, i)).bindPair k (w, i)) := by
        split
        · exact hs
        · exact (hs.unbindPair _ _).bindPair _ _
      exact (hbound.of_same (setWall_same _ w _) rfl).of_same (queueTile_same _ _) rfl
  · exact hs

theorem serveSalvoFire (o : Order) : SalvoLaw (Machine.serveSalvoFire o s).state := by
  unfold Machine.serveSalvoFire
  split
  · exact hs
  · exact hs.fire _

theorem resetBlock (b : Block) : SalvoLaw (s.resetBlock b) := by
  cases b with
  | link => exact hs.resetLink
  | salvos =>
    have hentry (d : Dest) : (s.resetBlock .salvos).entry d = (s.entry d).untagged :=
      mapEntries_entry s _ d
    refine salvoLaw_of_untagged (fun d c hc => ?_) fun k => by simp [State.resetBlock, State.resetSalvos,
      State.slot]
    rw [hentry] at hc
    exact untagged_claims hc
  | walls w =>
    have hsalvos : (s.resetWalls w).salvos = s.salvos := resetWalls_same s w .salvos (by decide)
    refine hs.of_claims hsalvos fun d => ?_
    rw [State.resetBlock, resetWalls_eq, foldl_resetWall_entry]
    exact ⟨rfl, rfl⟩
  | recorders => exact hs.of_same (resetRecorders_same s) rfl
  | panels => exact hs.of_claims rfl fun _ => ⟨rfl, rfl⟩

theorem serveBlock (τ : Nat) (these : Block → Bool) : SalvoLaw (s.serveBlock τ these) := by
  refine hs.serveIf (fun o hu => ifFormed_keeps (fun o hu => ?_) o hu) τ _
  unfold serveBlockReset
  split
  · exact hu
  · exact hu.resetBlock _

/-! ### The resets of the part -/

theorem releaseReset : SalvoLaw s.releaseReset := by
  have hbegun : SalvoLaw { s with now := 0, pins := { s.pins with reset := false } } :=
    hs.of_claims rfl fun _ => ⟨rfl, rfl⟩
  have hread : SalvoLaw (State.readCarrier { s with now := 0, pins := { s.pins with reset := false } }) := by
    unfold State.readCarrier
    split
    · exact hbegun.of_same (startSurvey_same _) rfl
    · exact hbegun
  refine foldl_keeps (fun i hu => ?_) _ (hread.of_same (SameBut.foldl issueHalt_same _ _) rfl)
  unfold State.readRaw
  split
  · exact hu.startInterval i
  · exact hu

omit hs in
theorem assertReset (s : State) : SalvoLaw s.assertReset :=
  reset_salvoLaw.of_claims rfl fun _ => ⟨rfl, rfl⟩

omit hs in
theorem deviceReset (s : State) : SalvoLaw s.deviceReset := (assertReset _).releaseReset

/-! ### Every command -/

section
variable {t : State}

/-- A command that writes neither the map nor the slots. -/
theorem exec_of_footprint {c : Instr} (ht : exec c s = .next t)
    (hp : (footprint c).all Part.storeless = true) : SalvoLaw t := by
  obtain ⟨u, hu, hsame⟩ := exec_same c s
  exact next_keeps (hu.symm.trans ht) (hs.of_same hsame hp)

theorem execControlTxComplete {τ : Nat} (ht : Machine.execControlTxComplete τ s = .next t) :
    SalvoLaw t := by
  unfold Machine.execControlTxComplete at ht
  split at ht
  · exact next_keeps ht hs
  · split at ht
    · exact next_keeps ht (hs.of_same (begin_same s) rfl)
    · split at ht
      · exact next_keeps ht (deviceReset s)
      · exact next_keeps ht ((hs.of_same (clock_same s τ) rfl).of_same (begin_same _) rfl)

theorem execOverdueEntry {d : Dest} (ht : Machine.execOverdueEntry d s = .next t) : SalvoLaw t := by
  unfold Machine.execOverdueEntry at ht
  split at ht
  · exact next_keeps ht hs
  · next p hp =>
    split at ht
    · refine next_keeps ht ?_
      unfold State.event
      split
      · exact hs
      · have hset := setPending (d := d) (q := p.enterOverdue (s.clock s.now).sched.timeout)
          (hs.of_same (clock_same s s.now) rfl) hp rfl
        exact hset.of_same (flushHigh_same _) rfl
    · exact next_keeps ht hs

theorem execTakeTimedOut {d : Dest} (ht : Machine.execTakeTimedOut d s = .next t) : SalvoLaw t := by
  unfold Machine.execTakeTimedOut at ht
  split at ht
  · exact next_keeps ht hs
  · split at ht
    · exact next_keeps ht (hs.event (fun hu => (hu.timeOut d).dispatchDue [d]) _)
    · exact next_keeps ht hs

theorem execCarrierLoss {τ : Nat} (ht : Machine.execCarrierLoss τ s = .next t) : SalvoLaw t := by
  unfold Machine.execCarrierLoss at ht
  split at ht
  · have hlost := (hs.of_same (withPins_same s { s.pins with carrier := false }) rfl).of_same
      (withLink_same _ { s.link with line := none }) rfl
    exact next_keeps ht (hlost.event (fun hu => hu.loseCarrier) τ)
  · exact next_keeps ht hs

/-- Every command keeps the law. -/
theorem exec {c : Instr} (ht : Machine.exec c s = .next t) : SalvoLaw t := by
  cases c with
  | resetPinAssert =>
    change execResetPinAssert s = _ at ht
    unfold execResetPinAssert at ht
    split at ht
    · exact next_keeps ht hs
    · exact next_keeps ht (assertReset s)
  | resetPinRelease =>
    change execResetPinRelease s = _ at ht
    unfold execResetPinRelease at ht
    split at ht
    · exact next_keeps ht hs.releaseReset
    · exact next_keeps ht hs
  | take τ => exact next_keeps ht (hs.serve (fun o hu => hu.serveTake o) τ _)
  | destSet τ => exact next_keeps ht (hs.serve (fun o hu => hu.serveDestSet o) τ _)
  | lock τ => exact next_keeps ht (hs.serve (fun o hu => hu.serveLock o) τ _)
  | unlock τ => exact next_keeps ht (hs.serve (fun o hu => hu.serveUnlock o) τ _)
  | protect τ => exact next_keeps ht (hs.serve (fun o hu => hu.serveProtect o) τ _)
  | tileSet τ => exact next_keeps ht (hs.serve (fun o hu => hu.serveTileSet o) τ _)
  | salvoOpen τ => exact next_keeps ht (hs.serve (fun o hu => hu.serveSalvoOpen o) τ _)
  | salvoPut τ => exact next_keeps ht (hs.serve (fun o hu => hu.serveSalvoPut o) τ _)
  | salvoDrop τ => exact next_keeps ht (hs.serve (fun o hu => hu.serveSalvoDrop o) τ _)
  | salvoArm τ => exact next_keeps ht (hs.serve (fun o hu => hu.serveSalvoArm o) τ _)
  | salvoClear τ => exact next_keeps ht (hs.serve (fun o hu => hu.serveSalvoClear o) τ _)
  | salvoFire τ => exact next_keeps ht (hs.serve (fun o hu => hu.serveSalvoFire o) τ _)
  | refSet τ order => exact next_keeps ht (hs.serve (fun o hu => hu.serveRefSet order o) τ _)
  | refEdge τ g order =>
    exact next_keeps ht ((hs.expireBefore τ g order).event (fun hu => hu.edge g order) τ)
  | toleranceExpiry g order =>
    change execToleranceExpiry g order s = _ at ht
    unfold execToleranceExpiry at ht
    split at ht
    · exact next_keeps ht (hs.event (fun hu => hu.expireTolerance g order) _)
    · exact next_keeps ht hs
  | freewheelBoundary g order =>
    change execFreewheelBoundary g order s = _ at ht
    unfold execFreewheelBoundary at ht
    split at ht
    · exact next_keeps ht (hs.event (fun hu => hu.freewheel g order) _)
    · exact next_keeps ht hs
  | overdueEntry d => exact hs.execOverdueEntry ht
  | takeTimedOut d => exact hs.execTakeTimedOut ht
  | takeFallsDue τ => exact next_keeps ht (hs.event (fun hu => hu.dispatchDue _) τ)
  | carrierLoss τ => exact hs.execCarrierLoss ht
  | routeReport τ dest source token held survey =>
    exact next_keeps ht (hs.wholeMessage (fun hu => hu.report _) τ)
  | surveyEnd τ dests sources => exact next_keeps ht (hs.wholeMessage (fun hu => hu.endSurvey _ _) τ)
  | matrixBadFrame τ bytes => exact next_keeps ht (hs.event (fun hu => hu.matrixBytes bytes) τ)
  | triggerRawChange τ i b =>
    change execTriggerRawChange τ i b s = _ at ht
    unfold execTriggerRawChange at ht
    split at ht
    · exact next_keeps ht hs
    · split at ht
      · exact next_keeps ht (hs.of_same (setTrig_same s i _) rfl)
      · exact next_keeps ht (hs.event (fun hu => hu.rawChange i b) τ)
  | qualifiedEdge i =>
    change execQualifiedEdge i s = _ at ht
    unfold execQualifiedEdge at ht
    split at ht
    · exact next_keeps ht hs
    · exact next_keeps ht (hs.event (fun hu => hu.qualify i) _)
  | controlTxComplete τ => exact hs.execControlTxComplete ht
  | blockResetLink τ => exact next_keeps ht (hs.serveBlock τ _)
  | blockResetSalvos τ => exact next_keeps ht (hs.serveBlock τ _)
  | blockResetWalls τ => exact next_keeps ht (hs.serveBlock τ _)
  | blockResetRecorders τ => exact next_keeps ht (hs.serveBlock τ _)
  | blockResetPanels τ => exact next_keeps ht (hs.serveBlock τ _)
  | deviceResetTakesEffect =>
    change execDeviceResetTakesEffect s = _ at ht
    unfold execDeviceResetTakesEffect at ht
    split at ht
    · exact next_keeps ht (deviceReset s)
    · exact next_keeps ht hs
  | _ => exact hs.exec_of_footprint ht rfl

end

end SalvoLaw

/-- Settles O60: a take that leaves its entry is counted off in the event of its end, and a fire counts the
takes it has accepted before its slot is read again. -/
theorem everyStepKeepsTheSalvoStore : Obligations.EveryStepKeepsTheSalvoStore := by
  unfold Obligations.EveryStepKeepsTheSalvoStore
  intro s t hs ht
  unfold step at ht
  split at ht
  · exact next_keeps ht hs
  · next c cs _ =>
    have hpopped : SalvoLaw { s with pending := cs } := hs.of_claims rfl fun _ => ⟨rfl, rfl⟩
    exact hpopped.exec ht

end Sys2Proof.Machine
end

section
/-! O43: the orders that build a slot (R88 to R92). -/

namespace Sys2Proof.Machine

/-- The state in which an answered order has left the interface. -/
def Answer.finished (a : Answer) (o : Order) : State := a.state.finishServing o a.verdict a.payload

section
variable {s : State} {o : Order} {code : Byte}

theorem serve_finished (h : Serving s o code) (τ : Nat) (act : Order → State → Answer) :
    s.serve τ code act = (act o (s.atDesk τ o)).finished o := serve_front h τ act

/-- An order that is refused, or that changes nothing. -/
theorem finished_answer (h : Serving s o code) (τ : Nat) (v : Verdict) :
    (answer v (s.atDesk τ o)).finished o = s.answered τ o v [] :=
  finishServing_eq (s := s.atDesk τ o) h.owed o v []

/-- An order that writes one slot. -/
theorem finished_setSlot (h : Serving s o code) (τ : Nat) (k : SlotNo) (q : Slot) (v : Verdict)
    (p : List Byte) : Answer.finished ⟨(s.atDesk τ o).setSlot k q, v, p⟩ o
      = { s.answered τ o v p with salvos := (s.setSlot k q).salvos } :=
  finishServing_eq (s := (s.atDesk τ o).setSlot k q) h.owed o v p

end

/-! ### Entry lists -/

theorem entryPlace_of_mem {l : List (Dest × Source)} {d : Dest} (h : d ∈ l.map (·.1)) :
    entryPlace l d = some (l.findIdx (·.1 = d)) := by
  obtain ⟨p, hp, rfl⟩ := List.mem_map.1 h
  simp only [entryPlace, beq_eq_decide]
  exact List.findIdx?_eq_some_of_exists ⟨p, hp, decide_eq_true rfl⟩

theorem entryPlace_of_not_mem {l : List (Dest × Source)} {d : Dest} (h : d ∉ l.map (·.1)) :
    entryPlace l d = none :=
  List.findIdx?_eq_none_iff.2 fun _ hp => beq_eq_false_iff_ne.2 fun hpd => h (hpd ▸ List.mem_map_of_mem hp)

theorem replaceEntry_eq (l : List (Dest × Source)) (d : Dest) (x : Source) :
    replaceEntry l d x = l.map fun e => if e.1 = d then (d, x) else e := by
  simp only [replaceEntry, beq_iff_eq]

theorem filter_bne_eq (l : List (Dest × Source)) (d : Dest) :
    (l.filter fun p => p.1 != d) = l.filter (·.1 ≠ d) := by
  simp only [bne, beq_eq_decide, decide_not]

/-- Settles O43: each order by the state of the slot. -/
theorem salvoOrdersBuildTheSlot : Obligations.SalvoOrdersBuildTheSlot := by
  unfold Obligations.SalvoOrdersBuildTheSlot
  intro τ s o k hk q done refused
  have hslot : (s.atDesk τ o).slot k = q := rfl
  have hentry (d : Dest) : (s.atDesk τ o).entry d = s.entry d := rfl
  clear_value q
  refine ⟨?opened, ?put, ?drop, ?arm, ?clear⟩
  case opened =>
    intro g p h hg hp
    refine (congrArg Host.Outcome.next (serve_finished h τ serveSalvoOpen)).trans ?_
    simp only [serveSalvoOpen, hk, hg, hp, slot?_val, group?_code, panel?_val, hslot]
    cases q.state with
    | empty => exact congrArg Host.Outcome.next (finished_setSlot h τ k _ _ _)
    | armed => exact congrArg Host.Outcome.next (finished_setSlot h τ k _ _ _)
    | opened => exact congrArg Host.Outcome.next (finished_answer h τ _)
    | firing => exact congrArg Host.Outcome.next (finished_answer h τ _)
  case put =>
    intro d x h hd hx
    refine (congrArg Host.Outcome.next (serve_finished h τ serveSalvoPut)).trans ?_
    simp only [serveSalvoPut, hk, hd, hx, slot?_val, dest?_val, source?_val, hslot, hentry]
    by_cases hopen : q.state ≠ .opened
    · rw [if_pos hopen, if_pos hopen]
      exact congrArg Host.Outcome.next (finished_answer h τ _)
    rw [if_neg hopen, if_neg hopen]
    by_cases hgroup : (s.entry d).group ≠ q.group
    · rw [if_pos hgroup, if_pos hgroup]
      exact congrArg Host.Outcome.next (finished_answer h τ _)
    rw [if_neg hgroup, if_neg hgroup]
    by_cases hlisted : d ∈ q.entries.map (·.1)
    · rw [if_pos hlisted, entryPlace_of_mem hlisted, replaceEntry_eq]
      exact congrArg Host.Outcome.next (finished_setSlot h τ k _ _ _)
    rw [if_neg hlisted, entryPlace_of_not_mem hlisted, show Config.salvoRoom = 48 from rfl]
    by_cases hfull : 48 ≤ q.entries.length
    · simp only [if_pos hfull]
      exact congrArg Host.Outcome.next (finished_answer h τ _)
    · simp only [if_neg hfull]
      exact congrArg Host.Outcome.next (finished_setSlot h τ k _ _ _)
  case drop =>
    intro d h hd
    refine (congrArg Host.Outcome.next (serve_finished h τ serveSalvoDrop)).trans ?_
    simp only [serveSalvoDrop, hk, hd, slot?_val, dest?_val, hslot, filter_bne_eq]
    by_cases hopen : q.state ≠ .opened
    · rw [if_pos hopen, if_pos hopen]
      exact congrArg Host.Outcome.next (finished_answer h τ _)
    rw [if_neg hopen, if_neg hopen]
    by_cases hlisted : d ∈ q.entries.map (·.1)
    · rw [entryPlace_of_mem hlisted, if_neg (not_not.2 hlisted)]
      exact congrArg Host.Outcome.next (finished_setSlot h τ k _ _ _)
    · rw [entryPlace_of_not_mem hlisted, if_pos hlisted]
      exact congrArg Host.Outcome.next (finished_answer h τ _)
  case arm =>
    intro h
    refine (congrArg Host.Outcome.next (serve_finished h τ serveSalvoArm)).trans ?_
    simp only [serveSalvoArm, hk, slot?_val, hslot]
    by_cases harms : q.state = .opened ∧ q.entries ≠ []
    · rw [if_pos harms, if_pos harms]
      exact congrArg Host.Outcome.next (finished_setSlot h τ k _ _ _)
    · rw [if_neg harms, if_neg harms]
      exact congrArg Host.Outcome.next (finished_answer h τ _)
  case clear =>
    intro h
    refine (congrArg Host.Outcome.next (serve_finished h τ serveSalvoClear)).trans ?_
    simp only [serveSalvoClear, hk, slot?_val, hslot]
    cases q.state with
    | empty => exact congrArg Host.Outcome.next (finished_answer h τ _)
    | firing => exact congrArg Host.Outcome.next (finished_answer h τ _)
    | opened => exact congrArg Host.Outcome.next (finished_setSlot h τ k _ _ _)
    | armed => exact congrArg Host.Outcome.next (finished_setSlot h τ k _ _ _)

end Sys2Proof.Machine
end

section
/-! O46: a qualified edge (R100 to R103). -/

namespace Sys2Proof.Machine

/-- The record of an input whose interval has expired (R100). -/
def Trigger.qualified (r : Trigger) : Trigger := { r with level := r.raw, interval := none }

/-! ### What an edge does, by the mode of its input (R101, R102) -/

section
variable {s : State} {r : Trigger}

theorem edgeAct_fires {k : SlotNo} (ht : r.target = some k) (hm : r.mode = .fire) :
    s.edgeAct r true = edgeFire k s := by
  simp only [State.edgeAct, ht, hm]

theorem edgeAct_starts {c : ChannelNo} (ht : r.target = some c)
    (h : r.mode = .recLevel ∨ r.mode = .recPulse ∧ (s.chan c).state = .idle) :
    s.edgeAct r true = edgeStart c s := by
  obtain hm | ⟨hm, hidle⟩ := h
  · simp only [State.edgeAct, ht, hm]
  · simp only [State.edgeAct, ht, hm, hidle, if_true]

theorem edgeAct_stops {c : ChannelNo} {rising : Bool} (ht : r.target = some c)
    (h : r.mode = .recLevel ∧ rising = false
      ∨ r.mode = .recPulse ∧ rising = true ∧ (s.chan c).state ≠ .idle) :
    s.edgeAct r rising = edgeStop c s := by
  obtain ⟨hm, rfl⟩ | ⟨hm, rfl, hbusy⟩ := h
  · simp only [State.edgeAct, ht, hm]
  · simp only [State.edgeAct, ht, hm, if_neg hbusy]

theorem edgeAct_idle {rising : Bool} (h : r.target = none ∨ r.mode = .unused ∨ r.mode = .noticeOnly
    ∨ (rising = false ∧ r.mode ≠ .recLevel)) : s.edgeAct r rising = edgeIdle s := by
  unfold State.edgeAct
  obtain ht | hm | hm | ⟨rfl, hm⟩ := h
  · rw [ht]
    cases r.mode <;> rfl
  · simp only [hm]
  · simp only [hm]
  · cases hmode : r.mode with
    | recLevel => exact absurd hmode hm
    | _ => cases r.target <;> rfl

end

/-! ### The edge and its notice (R103) -/

/-- The state in which an edge has acted and paid what it owes, and is announced. -/
def State.edgeNotified (i : InputNo) (r : Trigger) (e : EdgeEnd) : State :=
  if r.mode ≠ .unused ∧ r.enable = true then
    e.state.paid.raise (gpiNotice i r.raw r.qualified e.action e.verdict e.reached)
  else e.state.paid

theorem qualify_eq (s : State) (i : InputNo) : s.qualify i = State.edgeNotified i (s.trig i)
    ((s.setTrig i (s.trig i).qualified).edgeAct (s.trig i).qualified (s.trig i).raw) := by
  rw [State.qualify, flushHigh_eq_paid]
  rfl

theorem edgeNotified_paid (i : InputNo) (r : Trigger) (e : EdgeEnd) :
    (State.edgeNotified i r e).paid = State.edgeNotified i r e := by
  unfold State.edgeNotified
  split <;> exact paid_of_owed rfl

theorem exec_qualifiedEdge {s : State} {i : InputNo} {v : Interval} (hr : s.pins.reset = false)
    (hv : (s.trig i).interval = some v) : exec (.qualifiedEdge i) s
      = .next (State.edgeNotified i (s.trig i) ((((s.clock (v.start + v.q * 27000)).setTrig i
          (s.trig i).qualified)).edgeAct (s.trig i).qualified (s.trig i).raw)) := by
  change execQualifiedEdge i s = _
  rw [execQualifiedEdge, hv]
  change Host.Outcome.next (s.event _ _) = _
  rw [event_eq_paid hr, qualify_eq, edgeNotified_paid]
  rfl

/-- Settles O46: the edge by the mode of its input, then its notice. -/
theorem qualifiedEdgeActsByItsMode : Obligations.QualifiedEdgeActsByItsMode := by
  unfold Obligations.QualifiedEdgeActsByItsMode
  intro s i v hr _ hv r u noCounts notified fires starts stops
  have hedge {e : EdgeEnd} (he : u.edgeAct r.qualified r.raw = e) :
      exec (.qualifiedEdge i) s = .next (State.edgeNotified i r e) := he ▸ exec_qualifiedEdge hr hv
  refine ⟨fun k ht hfires => ?_, fun c ht hstarts => ?_, fun c ht hstops => ?_, fun hidle => ?_⟩
  · obtain ⟨hm, hraw⟩ := hfires
    exact hedge (hraw ▸ edgeAct_fires ht hm)
  · obtain ⟨hraw, h⟩ := hstarts
    exact hedge (hraw ▸ edgeAct_starts ht h)
  · exact hedge (edgeAct_stops ht hstops)
  · exact hedge (edgeAct_idle hidle)

end Sys2Proof.Machine
end

section
/-! O45: TRIG_SET (R104), and the raw level of a trigger input (R99, R100). -/

namespace Sys2Proof.Machine

/-! ### TRIG_SET -/

@[simp] theorem trigMode?_code (m : TrigMode) : trigMode? m.code = some m := by cases m <;> rfl

/-- A mode that has a target takes the slot or the channel named. -/
theorem target?_some {m : TrigMode} (hm : m = .fire ∨ m = .recLevel ∨ m = .recPulse) (x : Fin 16) :
    target? m x = some (some x) := by
  obtain rfl | rfl | rfl := hm
  · exact congrArg (Option.map some) (slot?_val x)
  · exact congrArg (Option.map some) (channel?_val x)
  · exact congrArg (Option.map some) (channel?_val x)

theorem target?_none {m : TrigMode} (hm : m = .unused ∨ m = .noticeOnly) (v : Nat) :
    target? m v = some none := by
  obtain rfl | rfl := hm <;> rfl

/-! ### The raw level -/

theorem setTrig_setTrig (s : State) (i : InputNo) (a b : Trigger) :
    (s.setTrig i a).setTrig i b = s.setTrig i b := by
  simp [State.setTrig]

section
variable {s : State} {i : InputNo} {level : Bool} {r : Trigger} (hr : r = { s.trig i with raw := level })
include hr

/-- Back to the qualified level the interval is abandoned. -/
theorem rawChange_back (h : level = r.level) :
    s.rawChange i level = s.setTrig i { r with interval := none } := by
  subst hr
  simp only [State.rawChange, State.setTrig_trig_self, setTrig_setTrig]
  exact if_pos h

theorem rawChange_away (h : level ≠ r.level) (hi : r.interval = none) :
    s.rawChange i level = (s.setTrig i r).startInterval i := by
  subst hr
  simp only [State.rawChange, State.setTrig_trig_self]
  rw [if_neg h, hi]
  rfl

theorem rawChange_within (h : level ≠ r.level) (hi : r.interval ≠ none) :
    s.rawChange i level = s.setTrig i r := by
  subst hr
  simp only [State.rawChange, State.setTrig_trig_self]
  rw [if_neg h, if_neg (by simpa using hi)]

end

theorem startInterval_eq (s : State) (i : InputNo) (r : Trigger) : (s.setTrig i r).startInterval i
    = if r.q.toNat = 0 then (s.setTrig i { r with interval := some ⟨s.now, 0⟩ }).qualify i
      else s.setTrig i { r with interval := some ⟨s.now, r.q.toNat⟩ } := by
  simp only [State.startInterval, State.setTrig_trig_self, setTrig_setTrig]
  split
  · next h => rw [h]; rfl
  · rfl

/-- An interval of Q = 0 expires at the instant at which it starts. -/
theorem exec_qualifiedEdge_now {s : State} {i : InputNo} (hr : s.pins.reset = false)
    (hv : (s.trig i).interval = some ⟨s.now, 0⟩) :
    exec (.qualifiedEdge i) s = .next (s.qualify i).paid := by
  rw [exec_qualifiedEdge hr hv, Nat.zero_mul, Nat.add_zero, clock_now_eq, qualify_eq, edgeNotified_paid]

/-- Settles O45: the write of the record, and the raw change by what the input's levels and interval were. -/
theorem triggerInputsAreSetAndQualified : Obligations.TriggerInputsAreSetAndQualified := by
  unfold Obligations.TriggerInputsAreSetAndQualified
  refine ⟨?set, ?raw⟩
  case set =>
    intro τ s o i mode target h hi hm ht enable
    have htarget : target? mode (read8 o.payload 2) = some target := by
      cases target with
      | none => exact target?_none ht _
      | some x =>
        obtain ⟨hmode, hx⟩ := ht
        rw [hx, target?_some hmode]
    refine congrArg Host.Outcome.next (serve_answer h τ (act := serveTrigSet)
      (t := (s.atDesk τ o).setTrig i { s.trig i with
        mode := mode, target := target, q := byteAt o.payload 3, enable := enable }) ?_ h.owed)
    change serveTrigSet o (s.atDesk τ o) = _
    simp only [serveTrigSet, hi, hm, input?_val, trigMode?_code, htarget, readFlag_eq]
    rfl
  case raw =>
    intro τ s i level ho hne r now became
    have hbecame (r1 : Trigger) : (s.clock τ).setTrig i r1 = became r1 := rfl
    refine ⟨fun hreset => ?_, fun hreset => ?_⟩
    · change execTriggerRawChange τ i level s = _
      rw [execTriggerRawChange, if_neg hne, if_pos hreset]
    · have hexec : exec (.triggerRawChange τ i level) s
          = .next ((s.clock τ).rawChange i level).paid := by
        change execTriggerRawChange τ i level s = _
        rw [execTriggerRawChange, if_neg hne, hreset, if_neg Bool.false_ne_true, event_eq_paid hreset]
      have hpaid (r1 : Trigger) : (became r1).paid = became r1 := paid_of_owed ho
      have hr : r = { (s.clock τ).trig i with raw := level } := rfl
      refine ⟨fun hback => ?_, fun haway hnone hq => ?_, fun haway hnone hq => ?_,
        fun haway hwithin => ?_⟩
      · rw [hexec, rawChange_back hr hback, hbecame, hpaid]
      · rw [hexec, rawChange_away hr haway hnone, startInterval_eq, if_neg, hbecame, hpaid]
        · rfl
        · exact fun h => hq (BitVec.eq_of_toNat_eq h)
      · rw [hexec, rawChange_away hr haway hnone, startInterval_eq, if_pos (by rw [hq]; rfl)]
        exact (exec_qualifiedEdge_now (s := became { r with interval := some ⟨now, 0⟩ }) hreset
          (congrArg Trigger.interval (s.setTrig_trig_self i _))).symm
      · rw [hexec, rawChange_within hr haway hwithin, hbecame, hpaid]

end Sys2Proof.Machine
end

section
/-! O44: several takes arrive in one event, one destination after the other (R47, R60, R94). -/

namespace Sys2Proof.Machine

/-! ### The take that gives way is reported -/

/-- The report of the take that gives way, on the entry `e` of a destination, to one that arrives. -/
def State.yield (e : Entry) (v : State) (d : Dest) : State :=
  if e.flies then
    match e.next with
    | some m => v.reportTake d m.ticket m.tag .superseded false
    | none => v
  else
    match e.pending with
    | some p => v.reportTake d p.ticket p.tag .superseded p.deferred
    | none => v

theorem gaveWay_eq_yield (s : State) (d : Dest) : s.gaveWay d = State.yield (s.entry d) s d := by
  unfold State.gaveWay State.yield State.nextSuperseded State.superseded
  split
  · cases (s.entry d).next <;> rfl
  · cases (s.entry d).pending <;> rfl

section
variable {s u : State} {d : Dest}

theorem yield_same (e : Entry) (s : State) (d : Dest) :
    SameBut [.control, .salvos] s (State.yield e s d) := by
  unfold State.yield
  split
  · split
    · exact reportTake_same s d _ _ _ _
    · exact .refl _ _
  · split
    · exact reportTake_same s d _ _ _ _
    · exact .refl _ _

theorem yield_accounts (ha : u.accounts = s.accounts) (hg : u.groups = s.groups)
    (he : (u.entry d).group = (s.entry d).group) (e : Entry) :
    (State.yield e u d).accounts = (State.yield e s d).accounts := by
  unfold State.yield
  split
  · split
    · exact reportTake_accounts ha hg he _ _ _ _
    · exact ha
  · split
    · exact reportTake_accounts ha hg he _ _ _ _
    · exact ha

/-- The reports of several destinations read the accounts, and of the map the groups. -/
theorem foldl_yield_accounts (es : Dest → Entry) {l : List Dest} (ha : u.accounts = s.accounts)
    (hg : u.groups = s.groups) (he : ∀ d ∈ l, (u.entry d).group = (s.entry d).group) :
    (l.foldl (fun v d => State.yield (es d) v d) u).accounts
      = (l.foldl (fun v d => State.yield (es d) v d) s).accounts := by
  induction l generalizing s u with
  | nil => exact ha
  | cons d l ih =>
    have hu := yield_same (es d) u d
    have hs := yield_same (es d) s d
    refine ih (yield_accounts ha hg (he d List.mem_cons_self) _) ?_ fun c hc => ?_
    · exact (hu .groups (by decide)).trans (hg.trans (hs .groups (by decide)).symm)
    · rw [entry_of_same hu, entry_of_same hs]
      exact he c (List.mem_cons_of_mem d hc)

theorem atDesk_foldl_yield (es : Dest → Entry) (l : List Dest) (s : State) (τ : Nat) (o : Order) :
    l.foldl (fun v d => State.yield (es d) v d) (s.atDesk τ o)
      = (l.foldl (fun v d => State.yield (es d) v d) s).atDesk τ o := by
  induction l generalizing s with
  | nil => rfl
  | cons d l ih =>
    have hone : State.yield (es d) (s.atDesk τ o) d = (State.yield (es d) s d).atDesk τ o := by
      unfold State.yield
      split
      · split
        · exact atDesk_reportTake s τ o d _ _ _ _
        · rfl
      · split
        · exact atDesk_reportTake s τ o d _ _ _ _
        · rfl
    rw [List.foldl_cons, hone, ih, List.foldl_cons]

end

/-! ### One arrival -/

section
variable (s : State) (d : Dest) (n : NextTake) (pl : Placement)

theorem arrive_walls : (s.arrive d n pl).2.walls
    = (if !(s.entry d).flies then s.queueTiles (s.entry d).tiles else s).walls := by
  obtain ⟨hf, ha⟩ | ⟨hf, t, ha, hplaced⟩ := arrive_cases s d n pl <;> rw [ha, hf]
  · exact nextSuperseded_same s d .walls (by decide)
  · exact hplaced.walls

theorem arrive_steady : s.link.Steady (s.arrive d n pl).2.link := by
  obtain ⟨-, ha⟩ | ⟨-, t, ha, hplaced⟩ := arrive_cases s d n pl <;> rw [ha]
  · have hlink : (s.nextSuperseded d).link = s.link := link_of_same (nextSuperseded_same s d)
    change s.link.Steady (s.nextSuperseded d).link
    rw [hlink]
    exact .refl _
  · rw [hplaced.link]
    exact ⟨rfl, rfl, rfl, rfl⟩

theorem arrive_counts : (s.arrive d n pl).2.map.dests = s.map.dests
    ∧ (s.arrive d n pl).2.map.sources = s.map.sources := by
  obtain ⟨hd, hs, -⟩ := onlyEntry_of_map (arrive_map s d n pl)
  exact ⟨hd, hs⟩

end

/-- The arrival of a take leaves what an access check of another destination reads (R16). -/
theorem arrive_accessCheck (s : State) {c d : Dest} (h : c ≠ d) (n : NextTake) (pl : Placement)
    (p : PanelNo) (x : Option Source) :
    (s.arrive d n pl).2.accessCheck p c x = s.accessCheck p c x := by
  have hsame := arrive_same s d n pl
  have hpanel : (s.arrive d n pl).2.panel p = s.panel p := by
    simp only [State.panel, show (s.arrive d n pl).2.panels = s.panels from hsame .panels (by decide)]
  obtain ⟨hdests, hsources⟩ := arrive_counts s d n pl
  simp only [accessCheck_eq, hpanel, arrive_link_state, hdests, hsources, arrive_entry_of_ne s d n pl h,
    grp_of_same hsame]

/-! ### The arrivals of an event -/

section
variable (take : Dest → NextTake) (pl : Placement)

/-- The take that an event brings a destination arrives there. -/
def State.receive (s : State) (d : Dest) : State := (s.arrive d (take d) pl).2

/-- Takes have arrived on some destinations, one after the other. -/
structure TakesArrived (l : List Dest) (s t : State) : Prop where
  same     : SameBut [.control, .map, .walls, .salvos, .link] s t
  accounts : t.accounts = (l.foldl (fun v d => State.yield (s.entry d) v d) s).accounts
  steady   : s.link.Steady t.link
  dests    : t.map.dests = s.map.dests
  sources  : t.map.sources = s.map.sources
  entry    : ∀ d, t.entry d = if d ∈ l then (s.entry d).received (take d) pl else s.entry d
  walls    : t.walls = (s.queueTiles ((l.filter fun d => !(s.entry d).flies).flatMap
    fun d => (s.entry d).tiles)).walls

variable {take pl}

theorem TakesArrived.cons {s t : State} {d : Dest} {l : List Dest} (hd : d ∉ l)
    (h : TakesArrived take pl l (s.receive take pl d) t) : TakesArrived take pl (d :: l) s t := by
  have hentry {c : Dest} (hc : c ≠ d) : (s.receive take pl d).entry c = s.entry c :=
    arrive_entry_of_ne s d (take d) pl hc
  have hrest {c : Dest} (hc : c ∈ l) : (s.receive take pl d).entry c = s.entry c :=
    hentry (ne_of_mem_of_not_mem hc hd)
  have hsame : SameBut [.control, .map, .walls, .salvos, .link] s (s.receive take pl d) :=
    arrive_same s d (take d) pl
  have hyield := yield_same (s.entry d) s d
  obtain ⟨hdests, hsources⟩ := arrive_counts s d (take d) pl
  refine ⟨hsame.trans h.same, ?_, (arrive_steady s d (take d) pl).trans h.steady, h.dests.trans hdests,
    h.sources.trans hsources, fun c => ?_, ?_⟩
  · have hreports : l.foldl (fun v c => State.yield ((s.receive take pl d).entry c) v c)
        (s.receive take pl d) = l.foldl (fun v c => State.yield (s.entry c) v c) (s.receive take pl d) :=
      List.foldl_ext _ _ _ fun v c hc => by rw [hrest hc]
    rw [h.accounts, hreports, List.foldl_cons]
    refine foldl_yield_accounts s.entry ?_ ?_ fun c hc => ?_
    · rw [← gaveWay_eq_yield]
      exact arrive_accounts s d (take d) pl
    · exact (hsame .groups (by decide)).trans (hyield .groups (by decide)).symm
    · rw [hrest hc, entry_of_same hyield]
  · rw [h.entry]
    by_cases hc : c = d
    · subst hc
      rw [if_neg hd, if_pos List.mem_cons_self]
      exact arrive_entry_self s c (take c) pl
    · simp only [hentry hc, List.mem_cons, hc, false_or]
  · have hfilter : l.filter (fun c => !((s.receive take pl d).entry c).flies)
        = l.filter fun c => !(s.entry c).flies := List.filter_congr fun c hc => by rw [hrest hc]
    have htiles : ((l.filter fun c => !(s.entry c).flies).flatMap
        fun c => ((s.receive take pl d).entry c).tiles)
        = (l.filter fun c => !(s.entry c).flies).flatMap fun c => (s.entry c).tiles :=
      List.flatMap_congr fun c hc => by rw [hrest (List.mem_of_mem_filter hc)]
    have hwalls : (s.receive take pl d).walls
        = (if !(s.entry d).flies then s.queueTiles (s.entry d).tiles else s).walls :=
      arrive_walls s d (take d) pl
    rw [h.walls, hfilter, htiles, List.filter_cons]
    split
    · next hf =>
      rw [if_pos hf] at hwalls
      rw [List.flatMap_cons, queueTiles_append]
      exact queueTiles_walls hwalls _
    · next hf =>
      rw [if_neg hf] at hwalls
      exact queueTiles_walls hwalls _

theorem foldl_receive_arrived {l : List Dest} (hl : l.Nodup) (s : State) :
    TakesArrived take pl l s (l.foldl (State.receive take pl) s) := by
  induction l generalizing s with
  | nil => exact ⟨.refl _ _, rfl, .refl _, rfl, rfl, fun d => (if_neg List.not_mem_nil).symm, rfl⟩
  | cons d l ih =>
    obtain ⟨hd, hl⟩ := List.nodup_cons.1 hl
    exact .cons hd (ih hl _)

end

end Sys2Proof.Machine
end

section
/-! O44: the account of a fire, and the takes that are due when its last entry has been taken (R49, R94,
R95). -/

namespace Sys2Proof.Machine

/-! ### The entries taken one by one -/

/-- The entries whose access check passes. -/
def State.accepts (s : State) (owner : PanelNo) (l : List (Dest × Source)) : List (Dest × Source) :=
  l.filter fun e => (s.accessCheck owner e.1 (some e.2)).isNone

/-- What one entry adds to the account of a fire, by its access check. -/
def State.fireStep (s : State) (owner : PanelNo) (a : FireAccount) (e : Dest × Source) : FireAccount :=
  match s.accessCheck owner e.1 (some e.2) with
  | some v => a.refuse v
  | none => a.accept e.1 (s.entry e.1).flies

section
variable {s : State} {owner : PanelNo} {e : Dest × Source} {l : List (Dest × Source)}

theorem accepts_cons_refused {v : Verdict} (h : s.accessCheck owner e.1 (some e.2) = some v) :
    s.accepts owner (e :: l) = s.accepts owner l := List.filter_cons_of_neg (by simp [h])

theorem accepts_cons_accepted (h : s.accessCheck owner e.1 (some e.2) = none) :
    s.accepts owner (e :: l) = e :: s.accepts owner l := List.filter_cons_of_pos (by simp [h])

theorem accepts_sublist : (s.accepts owner l).Sublist l := List.filter_sublist

/-- Each entry of a fire finds its own destination as it was before the fire, so that the accounts and
the arrivals are those of the first state. -/
theorem foldl_fireEntry {k : SlotNo} {pl : Placement} {take : Dest → NextTake}
    (htake : ∀ e ∈ l, take e.1 = salvoTake k owner e) (hl : (l.map (·.1)).Nodup) (a : FireAccount) :
    l.foldl (fireEntry k owner pl) (a, s) = (l.foldl (s.fireStep owner) a,
      ((s.accepts owner l).map (·.1)).foldl (State.receive take pl) s) := by
  induction l generalizing a s with
  | nil => rfl
  | cons e l ih =>
    rw [List.map_cons, List.nodup_cons] at hl
    obtain ⟨he, hl⟩ := hl
    have htake' : ∀ x ∈ l, take x.1 = salvoTake k owner x := fun x hx => htake x (List.mem_cons_of_mem e hx)
    rw [List.foldl_cons, List.foldl_cons, State.fireStep]
    cases hc : s.accessCheck owner e.1 (some e.2) with
    | some v => rw [fireEntry_refused hc, ih htake' hl, accepts_cons_refused hc]
    | none =>
      have hne : ∀ x ∈ l, x.1 ≠ e.1 := fun x hx hxe => he (hxe ▸ List.mem_map_of_mem hx)
      have hreceive : (s.arrive e.1 (salvoTake k owner e) pl).2 = s.receive take pl e.1 := by
        rw [State.receive, htake e List.mem_cons_self]
      have hcheck : ∀ x ∈ l, (s.receive take pl e.1).accessCheck owner x.1 (some x.2)
          = s.accessCheck owner x.1 (some x.2) := fun x hx =>
        arrive_accessCheck s (hne x hx) (take e.1) pl owner _
      have haccepts : (s.receive take pl e.1).accepts owner l = s.accepts owner l :=
        List.filter_congr fun x hx => by rw [hcheck x hx]
      have hsteps (b : FireAccount) : l.foldl ((s.receive take pl e.1).fireStep owner) b
          = l.foldl (s.fireStep owner) b := List.foldl_ext _ _ _ fun b x hx => by
        have hentry : (s.receive take pl e.1).entry x.1 = s.entry x.1 :=
          arrive_entry_of_ne s e.1 (take e.1) pl (hne x hx)
        rw [State.fireStep, State.fireStep, hcheck x hx, hentry]
      rw [fireEntry_accepted hc, hreceive, ih htake' hl, accepts_cons_accepted hc, haccepts, hsteps]
      rfl

/-- The account of some entries: those accepted are placed or queued, the others refused, and the first
refusal stands. -/
theorem foldl_fireStep (s : State) (owner : PanelNo) (l : List (Dest × Source)) (a : FireAccount) :
    l.foldl (s.fireStep owner) a =
      { accepted := a.accepted + (s.accepts owner l).length
        placed := a.placed + (s.accepts owner l).countP fun e => !(s.entry e.1).flies
        queued := a.queued + (s.accepts owner l).countP fun e => (s.entry e.1).flies
        refused := a.refused + (l.length - (s.accepts owner l).length)
        refusal := a.refusal.or (l.findSome? fun e => s.accessCheck owner e.1 (some e.2))
        dests := a.dests ++ ((s.accepts owner l).filter fun e => !(s.entry e.1).flies).map (·.1) } := by
  induction l generalizing a with
  | nil => simp [State.accepts]
  | cons e l ih =>
    have hlength := (accepts_sublist (s := s) (owner := owner) (l := l)).length_le
    rw [List.foldl_cons, State.fireStep, ih]
    cases hc : s.accessCheck owner e.1 (some e.2) with
    | some v =>
      rw [accepts_cons_refused hc, List.findSome?_cons_of_isSome (by simp [hc]), hc]
      have hrefused : a.refused + 1 + (l.length - (s.accepts owner l).length)
          = a.refused + (l.length + 1 - (s.accepts owner l).length) := by omega
      cases hr : a.refusal <;> simpa [FireAccount.refuse, hr] using hrefused
    | none =>
      rw [accepts_cons_accepted hc, List.findSome?_cons_of_isNone (by simp [hc])]
      cases hf : (s.entry e.1).flies <;> simp [FireAccount.accept, hf] <;> omega

/-- Entries that name each destination once name the source of each. -/
theorem exists_sources (hl : (l.map (·.1)).Nodup) : ∃ x : Dest → Source, ∀ e ∈ l, x e.1 = e.2 := by
  induction l with
  | nil => exact ⟨fun _ => 0, nofun⟩
  | cons e l ih =>
    rw [List.map_cons, List.nodup_cons] at hl
    obtain ⟨x, hx⟩ := ih hl.2
    refine ⟨Function.update x e.1 e.2, fun b hb => ?_⟩
    obtain rfl | hb := List.mem_cons.1 hb
    · exact Function.update_self ..
    · rw [Function.update_of_ne fun hbe : b.1 = e.1 => hl.1 (List.mem_map.2 ⟨b, hb, hbe⟩), hx b hb]

end

/-! ### The takes that are due -/

section
variable {s : State} {ds : List Dest}

theorem dispatchDue_eq (hds : ds.Nodup) (s : State) :
    s.dispatchDue ds = (ds.filter s.isDue).foldl State.requestToken s :=
  foldl_chosen requestToken_isDue_of_ne hds s

theorem dispatchDue_shared (hds : ds.Nodup) (s : State) :
    TokensShared (ds.filter s.isDue) s (s.dispatchDue ds) := by
  rw [dispatchDue_eq hds]
  refine foldl_requestToken_shared (hds.filter _) fun d hd hn => ?_
  have hdue := List.of_mem_filter hd
  simp [State.isDue, hn] at hdue

theorem dispatchDue_counts (hds : ds.Nodup) (s : State) :
    (s.dispatchDue ds).map.dests = s.map.dests ∧ (s.dispatchDue ds).map.sources = s.map.sources := by
  rw [dispatchDue_eq hds]
  exact foldl_requestToken_counts _ s

theorem dispatchDue_entry_frame (hds : ds.Nodup) (s : State) (d : Dest) : (s.dispatchDue ds).entry d
    = { s.entry d with pending := ((s.dispatchDue ds).entry d).pending } := by
  rw [(dispatchDue_shared hds s).entry]

theorem dispatchDue_entry_placed (hds : ds.Nodup) {d : Dest} {e : Entry} {p : Option Pending}
    (h : s.entry d = { e with pending := p }) :
    (s.dispatchDue ds).entry d = { e with pending := ((s.dispatchDue ds).entry d).pending } :=
  (dispatchDue_entry_frame hds s d).trans (by rw [h])

theorem dispatchDue_entry_of_not_mem {d : Dest} (h : d ∉ ds) :
    (s.dispatchDue ds).entry d = s.entry d := by
  refine foldl_untouched State.entry _ (fun u c e hec => ?_) ds s d h
  split
  · exact requestToken_entry_of_ne u hec
  · rfl

/-- Of several takes, one that has just been placed asks for a token when it is due, and otherwise stays
in HELD. -/
theorem dispatchDue_placed_among (hds : ds.Nodup) {d : Dest} (hd : d ∈ ds) {n : NextTake} {pl : Placement}
    (hp : (s.entry d).pending = some (heldTake n pl)) :
    if pl.countdown = 0 ∧ pl.offset ≤ s.since (s.entry d).group then
      Asked (s.dispatchDue ds) d (heldTake n pl)
    else ((s.dispatchDue ds).entry d).pending = some (heldTake n pl) := by
  have hdue := isDue_placed hp
  split
  · next h =>
    rw [dispatchDue_eq hds]
    exact foldl_requestToken_asked (hds.filter _) (List.mem_filter.2 ⟨hd, hdue.2 h⟩) hp
  · next h =>
    have hstays : d ∉ ds.filter s.isDue := fun hm => h (hdue.1 (List.of_mem_filter hm))
    rw [(dispatchDue_shared hds s).entry, hp]
    simp only [Option.map_some, if_neg hstays]

end

end Sys2Proof.Machine
end

section
/-! O44: SALVO_FIRE (R93 to R95). -/

namespace Sys2Proof.Machine

/-- The account of a fire that has taken all its entries (R94). -/
def State.fireAccount (s : State) (owner : PanelNo) (l : List (Dest × Source)) : FireAccount where
  accepted := (s.accepts owner l).length
  placed := (s.accepts owner l).countP fun e => !(s.entry e.1).flies
  queued := (s.accepts owner l).countP fun e => (s.entry e.1).flies
  refused := l.length - (s.accepts owner l).length
  refusal := l.findSome? fun e => s.accessCheck owner e.1 (some e.2)
  dests := ((s.accepts owner l).filter fun e => !(s.entry e.1).flies).map (·.1)

theorem foldl_fireStep_start (s : State) (owner : PanelNo) (l : List (Dest × Source)) :
    l.foldl (s.fireStep owner) .start = s.fireAccount owner l := by
  simp [foldl_fireStep, FireAccount.start, State.fireAccount]

theorem fireAccount_verdict (s : State) (owner : PanelNo) (l : List (Dest × Source)) :
    (s.fireAccount owner l).verdict = if s.accepts owner l = [] then
      (l.findSome? fun e => s.accessCheck owner e.1 (some e.2)).getD .salvoState else .scheduled := by
  simp only [FireAccount.verdict, State.fireAccount, List.length_pos_iff, ite_not]

theorem fired_state (q : Slot) {f : Firing} {α : Type} {l : List α} (h : f.accepted = l.length) :
    (q.fired f).state = if l = [] then .armed else .firing := by
  simp only [Slot.fired, h, List.length_pos_iff, ite_not]

section
variable {s : State} {k : SlotNo}

/-! ### The refusals of the whole salvo (R93) -/

theorem fire_not_armed (h : (s.slot k).state ≠ .armed) : s.fire k = ⟨.salvoState, none, s⟩ := by
  rw [State.fire, if_pos h]

theorem fire_not_up (h : (s.slot k).state = .armed) (hup : s.link.state ≠ .up) :
    s.fire k = ⟨.matrixDown, none, s⟩ := by
  rw [State.fire, if_neg (not_not.2 h), if_pos hup]

theorem fire_disabled (h : (s.slot k).state = .armed) (hup : s.link.state = .up)
    (hd : (s.grp (s.slot k).group).state = .disabled) : s.fire k = ⟨.noReference, none, s⟩ := by
  rw [State.fire, if_neg (not_not.2 h), if_neg (not_not.2 hup), if_pos hd]

/-! ### A fire that reaches its entries -/

/-- The firing record with which the slot is left (R95). -/
def State.firing (s : State) (k : SlotNo) : Firing :=
  firingOf (s.slot k).group (s.placement (s.slot k).group)
    (s.fireAccount (s.slot k).owner (s.slot k).entries)

/-- The destinations whose takes have been accepted, in the order of the entries. -/
def State.taken (s : State) (k : SlotNo) : List Dest :=
  (s.accepts (s.slot k).owner (s.slot k).entries).map (·.1)

/-- Salvo `k` has been fired: the takes `take` have arrived on the destinations of its accepted entries,
the slot has been written, and those that are due have asked the pool. -/
structure SalvoFired (s : State) (k : SlotNo) (take : Dest → NextTake) (t : State) : Prop where
  same    : SameBut [.control, .map, .walls, .salvos, .link] s t
  control : t.control = ((s.taken k).foldl (fun v d => State.yield (s.entry d) v d) s).control
  others  : ∀ j, j ≠ k →
    t.slot j = ((s.taken k).foldl (fun v d => State.yield (s.entry d) v d) s).slot j
  slot    : t.slot k = (s.slot k).fired (s.firing k)
  steady  : s.link.Steady t.link
  dests   : t.map.dests = s.map.dests
  sources : t.map.sources = s.map.sources
  kept    : ∀ d, d ∉ s.taken k → t.entry d = s.entry d
  queued  : ∀ d ∈ s.taken k, (s.entry d).flies = true →
    t.entry d = { s.entry d with next := some (take d) }
  placed  : ∀ d ∈ s.taken k, (s.entry d).flies = false →
    t.entry d = { s.entry d with pending := (t.entry d).pending }
  tiles   : ∀ d ∈ s.taken k, (s.entry d).flies = false →
    ∀ w i, (w, i) ∈ (s.entry d).tiles → i ∈ (t.wall w).queue
  due     : ∀ d ∈ s.taken k, (s.entry d).flies = false →
    if (s.placement (s.slot k).group).countdown = 0
        ∧ (s.placement (s.slot k).group).offset ≤ s.since (s.slot k).group then
      Asked t d (heldTake (take d) (s.placement (s.slot k).group))
    else (t.entry d).pending = some (heldTake (take d) (s.placement (s.slot k).group))

theorem taken_nodup (hs : SalvoLaw s) (k : SlotNo) : (s.taken k).Nodup :=
  (hs.once k).sublist (accepts_sublist.map _)

theorem taken_group (hs : SalvoLaw s) {d : Dest} (hd : d ∈ s.taken k) :
    (s.entry d).group = (s.slot k).group := by
  obtain ⟨e, he, rfl⟩ := List.mem_map.1 hd
  exact hs.group k e (accepts_sublist.subset he)

/-- The destinations on which a take has been placed, in ascending order. -/
def State.placedDests (s : State) (k : SlotNo) : List Dest :=
  (s.fireAccount (s.slot k).owner (s.slot k).entries).dests.insertionSort fun x y => x.1 ≤ y.1

theorem placedDests_nodup (hs : SalvoLaw s) (k : SlotNo) : (s.placedDests k).Nodup := by
  have hsub : (s.fireAccount (s.slot k).owner (s.slot k).entries).dests.Sublist (s.taken k) :=
    List.Sublist.map Prod.fst List.filter_sublist
  exact (List.perm_insertionSort ..).nodup_iff.2 ((taken_nodup hs k).sublist hsub)

theorem mem_placedDests {d : Dest} :
    d ∈ s.placedDests k ↔ d ∈ s.taken k ∧ (s.entry d).flies = false := by
  simp only [State.placedDests, (List.perm_insertionSort ..).mem_iff, State.fireAccount, State.taken,
    List.mem_map, List.mem_filter, Bool.not_eq_true']
  constructor
  · rintro ⟨e, ⟨he, hf⟩, rfl⟩
    exact ⟨⟨e, he, rfl⟩, hf⟩
  · rintro ⟨⟨e, he, rfl⟩, hf⟩
    exact ⟨e, ⟨he, hf⟩, rfl⟩

/-- The arrivals, the write of the slot and the requests together. -/
theorem SalvoFired.of_arrived (hs : SalvoLaw s) {take : Dest → NextTake} {w u : State}
    (h : TakesArrived take (s.placement (s.slot k).group) (s.taken k) s w)
    (hu : u = w.setSlot k ((s.slot k).fired (s.firing k))) :
    SalvoFired s k take (u.dispatchDue (s.placedDests k)) := by
  have hds := placedDests_nodup hs k
  have hwrite : SameBut [.salvos] w u := hu ▸ setSlot_same w k _
  have hdispatch := dispatchDue_same u (s.placedDests k)
  have hsame : SameBut [.control, .map, .walls, .salvos, .link] s u := h.same.trans (hwrite.mono (by decide))
  obtain ⟨hdests, hsources⟩ := dispatchDue_counts hds u
  have hmap : u.map = w.map := hwrite .map (by decide)
  have hlink : u.link = w.link := hwrite .link (by decide)
  obtain ⟨hcontrol, hsalvos⟩ := accounts_eq_iff.1 h.accounts
  have hslot (j : SlotNo) : (u.dispatchDue (s.placedDests k)).slot j = u.slot j :=
    congrArg (·.get j) (hdispatch .salvos (by decide))
  have hentry (d : Dest) : u.entry d
      = if d ∈ s.taken k then (s.entry d).received (take d) (s.placement (s.slot k).group)
        else s.entry d := (entry_of_same hwrite (by decide) d).trans (h.entry d)
  have hplaced {d : Dest} (hd : d ∈ s.taken k) (hf : (s.entry d).flies = false) : u.entry d
      = { s.entry d with pending := some (heldTake (take d) (s.placement (s.slot k).group)) } := by
    rw [hentry, if_pos hd, Entry.received, hf, if_neg Bool.false_ne_true]
  exact {
    same := hsame.trans (hdispatch.mono (by decide))
    control := (hdispatch .control (by decide)).trans ((hwrite .control (by decide)).trans hcontrol)
    others := fun j hj => by
      rw [hslot, hu, State.setSlot_slot_of_ne _ _ _ hj]
      exact congrArg (·.get j) hsalvos
    slot := by rw [hslot, hu, State.setSlot_slot_self]
    steady := h.steady.trans (hlink ▸ (dispatchDue_shared hds u).steady)
    dests := hdests.trans ((congrArg CrosspointMap.dests hmap).trans h.dests)
    sources := hsources.trans ((congrArg CrosspointMap.sources hmap).trans h.sources)
    kept := fun d hd => by
      rw [dispatchDue_entry_of_not_mem fun hm => hd (mem_placedDests.1 hm).1, hentry, if_neg hd]
    queued := fun d hd hf => by
      have hunplaced : d ∉ s.placedDests k := by simp [mem_placedDests, hf]
      rw [dispatchDue_entry_of_not_mem hunplaced, hentry, if_pos hd, Entry.received, if_pos hf]
    placed := fun d hd hf => dispatchDue_entry_placed hds (hplaced hd hf)
    tiles := fun d hd hf _ _ hi => by
      have hwalls := (hdispatch .walls (by decide)).trans ((hwrite .walls (by decide)).trans h.walls)
      exact mem_queue_of_walls hwalls (List.mem_flatMap.2 ⟨d, List.mem_filter.2 ⟨hd, by simp [hf]⟩, hi⟩)
    due := fun d hd hf => by
      have hpending := congrArg Entry.pending (hplaced hd hf)
      have hgroup := (congrArg Entry.group (hplaced hd hf)).trans (taken_group hs hd)
      have hasked := dispatchDue_placed_among hds (mem_placedDests.2 ⟨hd, hf⟩) hpending
      rwa [hgroup, since_of_same hsame] at hasked }

/-- A fire whose entries have come to the account `a` and the state `w`. -/
theorem fire_eq (h : (s.slot k).state = .armed) (hup : s.link.state = .up)
    (hd : (s.grp (s.slot k).group).state ≠ .disabled) {a : FireAccount} {w : State}
    (hfold : (s.slot k).entries.foldl (fireEntry k (s.slot k).owner (s.placement (s.slot k).group))
      (.start, s) = (a, w)) :
    s.fire k = ⟨a.verdict, some (firingOf (s.slot k).group (s.placement (s.slot k).group) a),
      (w.setSlot k ((w.slot k).fired (firingOf (s.slot k).group (s.placement (s.slot k).group) a)))
        |>.dispatchDue (a.dests.insertionSort fun x y => x.1 ≤ y.1)⟩ := by
  rw [State.fire, if_neg (not_not.2 h), if_neg (not_not.2 hup), if_neg hd]
  dsimp only
  rw [hfold]

/-- A fire that passes the tests of the whole salvo. -/
theorem fire_reached (hs : SalvoLaw s) (h : (s.slot k).state = .armed) (hup : s.link.state = .up)
    (hd : (s.grp (s.slot k).group).state ≠ .disabled) : ∃ take t,
      (∀ e ∈ (s.slot k).entries, take e.1 = salvoTake k (s.slot k).owner e)
      ∧ s.fire k = ⟨(s.fireAccount (s.slot k).owner (s.slot k).entries).verdict, some (s.firing k), t⟩
      ∧ SalvoFired s k take t := by
  obtain ⟨x, hx⟩ := exists_sources (hs.once k)
  let take (d : Dest) : NextTake := ⟨x d, (s.slot k).owner, 0, some k⟩
  have htake : ∀ e ∈ (s.slot k).entries, take e.1 = salvoTake k (s.slot k).owner e := fun e he => by
    simp only [take, salvoTake, hx e he]
  have hfold := foldl_fireEntry (s := s) (pl := s.placement (s.slot k).group) htake (hs.once k) .start
  rw [foldl_fireStep_start] at hfold
  have hslot := ((hs.underFire h).all (hs.once k) (s.slot k).owner
    (s.placement (s.slot k).group)).slot
  rw [hfold] at hslot
  refine ⟨take, _, htake, ?_, .of_arrived hs (foldl_receive_arrived (taken_nodup hs k) s) rfl⟩
  rw [fire_eq h hup hd hfold, hslot]
  rfl

end

/-! ### The order -/

theorem serveSalvoFire_eq {s t : State} {o : Order} {k : SlotNo} {v : Verdict} {f : Option Firing}
    (hk : read8 o.payload 0 = k) (hf : s.fire k = ⟨v, f, t⟩) :
    serveSalvoFire o s = ⟨t, v, f.elim [] firePayload⟩ := by
  simp only [serveSalvoFire, hk, slot?_val, hf]
  cases f <;> rfl

theorem exec_salvoFire_refused {s : State} {o : Order} {k : SlotNo} {v : Verdict} {τ : Nat}
    (h : Serving s o 0x35) (hk : read8 o.payload 0 = k)
    (hf : (s.atDesk τ o).fire k = ⟨v, none, s.atDesk τ o⟩) :
    exec (.salvoFire τ) s = .next (s.answered τ o v []) :=
  congrArg Host.Outcome.next (serve_quiet h τ (serveSalvoFire_eq hk hf))

theorem exec_salvoFire_reached {s t : State} {o : Order} {k : SlotNo} {v : Verdict} {f : Firing} {τ : Nat}
    (h : Serving s o 0x35) (hk : read8 o.payload 0 = k)
    (hf : (s.atDesk τ o).fire k = ⟨v, some f, t⟩) (ht : t.recorder = s.recorder) :
    exec (.salvoFire τ) s = .next { t with control := t.control.answered o v (firePayload f) } :=
  congrArg Host.Outcome.next (serve_answer h τ (serveSalvoFire_eq hk hf) (ht ▸ h.owed))

theorem clock_atDesk (s : State) (τ : Nat) (o : Order) : (s.clock τ).atDesk τ o = s.atDesk τ o := by
  simp only [State.atDesk, State.clock, max_assoc, max_self]

/-- Settles O44: the tests of the whole salvo, then the account of its entries and what each of them has
become. -/
theorem salvoFireTakesItsEntries : Obligations.SalvoFireTakesItsEntries := by
  unfold Obligations.SalvoFireTakesItsEntries
  intro τ s o k hs h hk q disabled
  refine ⟨fun harmed => exec_salvoFire_refused h hk (fire_not_armed harmed),
    fun harmed hup => exec_salvoFire_refused h hk (fire_not_up harmed hup),
    fun harmed hup hd => exec_salvoFire_refused h hk (fire_disabled harmed hup hd),
    fun harmed hup hd => ?_⟩
  intro u pl check inFlight accepted f superseded v
  have hdesk : SalvoLaw (s.atDesk τ o) := hs.of_same (atDesk_same s τ o) rfl
  obtain ⟨take, t, htake, hfire, hfired⟩ := fire_reached (s := s.atDesk τ o) hdesk harmed hup hd
  have hyields : ((s.atDesk τ o).taken k).foldl
      (fun v d => State.yield ((s.atDesk τ o).entry d) v d) (s.atDesk τ o) = v.atDesk τ o := by
    change (accepted.map (·.1)).foldl (fun v d => State.yield (s.entry d) v d) (s.atDesk τ o) = _
    rw [← clock_atDesk, atDesk_foldl_yield, List.foldl_map]
    rfl
  have htake' {e : Dest × Source} (he : e ∈ accepted) : take e.1 = ⟨e.2, q.owner, 0, some k⟩ :=
    htake e (accepts_sublist.subset he)
  have hmem {e : Dest × Source} (he : e ∈ accepted) : e.1 ∈ (s.atDesk τ o).taken k :=
    List.mem_map_of_mem (f := Prod.fst) he
  have hcontrol := hfired.control
  have hothers := hfired.others
  rw [hyields] at hcontrol hothers
  refine ⟨_, exec_salvoFire_reached h hk hfire (hfired.same .recorder (by decide)), ?same,
    hfired.same .now (by decide), ?control, hothers, ?slot, hfired.steady, hfired.dests, hfired.sources,
    hfired.kept, ?accepted⟩
  case same =>
    exact ((atDesk_same s τ o).comp hfired.same (by decide) (by decide)).trans
      ((withControl_same t _).mono (by decide))
  case control =>
    rw [hcontrol, fireAccount_verdict]
    rfl
  case slot =>
    refine hfired.slot.trans ?_
    have hstate := fired_state q (f := f) (l := accepted) rfl
    change { q with state := (q.fired f).state, outstanding := f.accepted, firing := some f } = _
    rw [hstate]
  case accepted =>
    intro e he new
    have hqueued := hfired.queued e.1 (hmem he)
    have hdue := hfired.due e.1 (hmem he)
    rw [htake' he] at hqueued hdue
    exact ⟨hqueued, fun hf => ⟨hfired.placed e.1 (hmem he) hf, hfired.tiles e.1 (hmem he) hf, hdue hf⟩⟩

end Sys2Proof.Machine
end

section
/-! O56: what the counts of tally are taken from (R106, R107), and the law within an event. -/

namespace Sys2Proof.Machine

/-! ### Credits

The three counts are sums of what each destination and each channel adds, so that a write of one record
changes what is due by what that record adds before and after. -/

/-- What one destination or one channel adds to the count `j` of the source `y`: 1 when it counts there
and carries that source. `k` is the count it stands in, if any, and `x` the source it carries. -/
def credit (k : Option Counter) (x : Option Source) (j : Counter) (y : Source) : Nat :=
  if k = some j ∧ x = some y then 1 else 0

@[simp] theorem credit_none_counter (x : Option Source) (j : Counter) (y : Source) :
    credit none x j y = 0 := by simp [credit]

@[simp] theorem credit_none_source (k : Option Counter) (j : Counter) (y : Source) :
    credit k none j y = 0 := by simp [credit]

theorem credit_of_ne {x : Option Source} {y : Source} (h : x ≠ some y) (k : Option Counter) (j : Counter) :
    credit k x j y = 0 := if_neg fun hk => h hk.2

/-- A destination counts by its class (R2). -/
def Entry.credit (e : Entry) : Counter → Source → Nat := Machine.credit (classCounter e.cls) e.source

/-- A channel counts while it is in RECORDING. -/
def Channel.counter (r : Channel) : Option Counter := if r.state = .recording then some .record else none

theorem Channel.counter_of_ne {r : Channel} (h : r.state ≠ .recording) : r.counter = none := if_neg h

theorem Channel.counter_of_recording {r : Channel} (h : r.state = .recording) :
    r.counter = some .record := if_pos h

/-- A channel is credited with the source of its destination. -/
def State.chanCredit (s : State) (c : ChannelNo) : Counter → Source → Nat :=
  credit (s.chan c).counter (s.chanSource c)

/-- What the map and the recorders give for the count `j` of the source `y`. -/
def State.due (s : State) (j : Counter) (y : Source) : Nat :=
  ∑ d, (s.entry d).credit j y + ∑ c, s.chanCredit c j y

/-- One of the three counts of a record. -/
def Tally.count (r : Tally) : Counter → Nat
  | .program => r.program
  | .preview => r.preview
  | .record => r.record

/-- A number of records that meet a condition is a sum over the records. -/
theorem countP_finRange_eq_sum {n : Nat} (p : Fin n → Bool) :
    (List.finRange n).countP p = ∑ i, if p i then 1 else 0 := by
  have hone (i : Fin n) : (p i).toNat + false.toNat = if p i then 1 else 0 := by cases p i <;> rfl
  have hsum := countP_add_countP p (fun _ => false) (List.finRange n)
  simp only [← List.ofFn_eq_map, List.sum_ofFn, hone] at hsum
  simpa using hsum

theorem carrying_eq_sum (s : State) {k : DestClass} {j : Counter}
    (hk : ∀ b, b = k ↔ classCounter b = some j) (x : Source) :
    s.carrying k x = ∑ d, (s.entry d).credit j x := by
  rw [State.carrying, countP_finRange_eq_sum]
  refine Finset.sum_congr rfl fun d _ => ?_
  simp only [Entry.credit, credit, ← hk, Bool.and_eq_true, beq_iff_eq]

theorem recording_eq_sum (s : State) (x : Source) : s.recording x = ∑ c, s.chanCredit c .record x := by
  rw [State.recording, countP_finRange_eq_sum]
  refine Finset.sum_congr rfl fun c _ => ?_
  by_cases h : (s.chan c).state = .recording
  · simp [State.chanCredit, Channel.counter_of_recording h, credit, h]
  · simp [State.chanCredit, Channel.counter_of_ne h, h]

/-- The counts of the classes are taken from the map alone. -/
theorem due_of_class (s : State) {k : DestClass} {j : Counter} (hk : ∀ b, b = k ↔ classCounter b = some j)
    (hj : j ≠ .record) (x : Source) : s.due j x = s.carrying k x := by
  have hchan (c : ChannelNo) : s.chanCredit c j x = 0 := by
    unfold State.chanCredit Channel.counter
    split
    · exact if_neg fun h => hj (Option.some.inj h.1).symm
    · exact credit_none_counter ..
  rw [carrying_eq_sum s hk, State.due, Finset.sum_eq_zero fun c _ => hchan c, Nat.add_zero]

/-- The record counts are taken from the channels alone. -/
theorem due_record (s : State) (x : Source) : s.due .record x = s.recording x := by
  have hentry (d : Dest) : (s.entry d).credit .record x = 0 := by
    unfold Entry.credit
    cases (s.entry d).cls <;> simp [classCounter, credit]
  rw [recording_eq_sum, State.due, Finset.sum_eq_zero fun d _ => hentry d, Nat.zero_add]

/-! ### The law within an event -/

/-- The law of tally within an event: the colours of the sources in `P` are yet to be compared. Most
operations keep it whatever `P` is, so that one lemma for each serves within an event and after it. -/
structure TallyLawOf (P : Source → Prop) (s : State) : Prop where
  counts : ∀ j x, (s.tallyOf x).count j = s.due j x
  colour : ∀ x, ¬ P x → (s.tallyOf x).colour = colourOf (s.tallyOf x)

/-- Between events every colour has been compared. -/
theorem tallyLawOf_iff (s : State) : TallyLawOf (fun _ => False) s ↔ TallyLaw s := by
  have hprogram := due_of_class s (k := .program) (j := .program) (fun b => by cases b <;> simp [classCounter])
    nofun
  have hpreview := due_of_class s (k := .preview) (j := .preview) (fun b => by cases b <;> simp [classCounter])
    nofun
  constructor
  · rintro ⟨counts, colour⟩
    exact ⟨fun x => (counts .program x).trans (hprogram x), fun x => (counts .preview x).trans (hpreview x),
      fun x => (counts .record x).trans (due_record s x), fun x => colour x not_false⟩
  · rintro ⟨program, preview, record, colour⟩
    refine ⟨fun j x => ?_, fun x _ => colour x⟩
    cases j with
    | program => exact (program x).trans (hprogram x).symm
    | preview => exact (preview x).trans (hpreview x).symm
    | record => exact (record x).trans (due_record s x).symm

theorem TallyLawOf.mono {P Q : Source → Prop} {s : State} (hs : TallyLawOf P s) (h : ∀ x, P x → Q x) :
    TallyLawOf Q s := ⟨hs.counts, fun x hx => hs.colour x (mt (h x) hx)⟩

/-! ### What the law reads -/

section
variable {P : Source → Prop} {s t : State}

theorem due_congr (he : ∀ d, (t.entry d).credit = (s.entry d).credit)
    (hc : ∀ c, t.chanCredit c = s.chanCredit c) : t.due = s.due := by
  funext j y
  simp only [State.due, he, hc]

/-- The law reads the tally records, and what the map and the recorders give. -/
theorem TallyLawOf.of_due (hs : TallyLawOf P s) (ht : t.tally = s.tally) (hd : t.due = s.due) :
    TallyLawOf P t := by
  have htally (x : Source) : t.tallyOf x = s.tallyOf x := by simp only [State.tallyOf, ht]
  refine ⟨fun j x => ?_, fun x hx => ?_⟩
  · rw [htally, hd]
    exact hs.counts j x
  · rw [htally]
    exact hs.colour x hx

theorem chanCredit_congr {c : ChannelNo} (hst : (t.chan c).state = (s.chan c).state)
    (hb : (t.chan c).bound = (s.chan c).bound) (he : ∀ d, (t.entry d).source = (s.entry d).source) :
    t.chanCredit c = s.chanCredit c := by
  simp only [State.chanCredit, Channel.counter, State.chanSource, hst, hb, he]

/-- Of an entry the counts are taken from the class and the source; of a channel, from its state and its
binding. -/
theorem due_of_fields
    (he : ∀ d, (t.entry d).cls = (s.entry d).cls ∧ (t.entry d).source = (s.entry d).source)
    (hc : ∀ c, (t.chan c).state = (s.chan c).state ∧ (t.chan c).bound = (s.chan c).bound) :
    t.due = s.due :=
  due_congr (fun d => by simp only [Entry.credit, he d])
    fun c => chanCredit_congr (hc c).1 (hc c).2 fun d => (he d).2

/-- The part holds neither tally records nor what they count. -/
def Part.uncounted : Part → Bool
  | .map | .tally | .recorder => false
  | _ => true

theorem TallyLawOf.of_same {ps : List Part} (hs : TallyLawOf P s) (h : SameBut ps s t)
    (hp : ps.all Part.uncounted = true) : TallyLawOf P t := by
  have hsame (p : Part) (hu : p.uncounted = false) : p.Same s t :=
    h p fun hm => Bool.false_ne_true (hu ▸ List.all_eq_true.1 hp p hm)
  have hmap : t.map = s.map := hsame .map rfl
  have hrecorder : t.recorder = s.recorder := hsame .recorder rfl
  refine hs.of_due (hsame .tally rfl) (due_of_fields (fun d => ?_) fun c => ?_)
  · simp only [State.entry, hmap, and_self]
  · simp only [State.chan, hrecorder, and_self]

end

/-! ### What is due after one record is written -/

theorem sum_exchange {n : Nat} {f g : Fin n → Nat} {i : Fin n} (h : ∀ k, k ≠ i → g k = f k) :
    ∑ k, g k + f i = ∑ k, f k + g i := by
  have hrest : ∑ k ∈ Finset.univ.erase i, g k = ∑ k ∈ Finset.univ.erase i, f k :=
    Finset.sum_congr rfl fun k hk => h k (Finset.ne_of_mem_erase hk)
  rw [← Finset.add_sum_erase _ g (Finset.mem_univ i), ← Finset.add_sum_erase _ f (Finset.mem_univ i), hrest]
  omega

/-- A channel is written: what it added is exchanged for what it adds now. -/
theorem due_setChan (s : State) (c : ChannelNo) (r : Channel) (j : Counter) (y : Source) :
    (s.setChan c r).due j y + s.chanCredit c j y = s.due j y + (s.setChan c r).chanCredit c j y := by
  have hother (b : ChannelNo) (hb : b ≠ c) : (s.setChan c r).chanCredit b j y = s.chanCredit b j y := by
    have hchan : (s.setChan c r).chan b = s.chan b := State.setChan_chan_of_ne _ _ _ hb
    rw [chanCredit_congr (congrArg Channel.state hchan) (congrArg Channel.bound hchan) fun _ => rfl]
  have hexchange : ∑ b, (s.setChan c r).chanCredit b j y + s.chanCredit c j y
      = ∑ b, s.chanCredit b j y + (s.setChan c r).chanCredit c j y := sum_exchange hother
  simp only [State.due, State.setChan_entry]
  omega

/-- An entry is written with the source that it holds: what it added by its class is exchanged for what it
adds now. -/
theorem due_setEntry (s : State) {d : Dest} {e : Entry} (he : e.source = (s.entry d).source) (j : Counter)
    (y : Source) :
    (s.setEntry d e).due j y + (s.entry d).credit j y = s.due j y + e.credit j y := by
  have hother (c : Dest) (hc : c ≠ d) : ((s.setEntry d e).entry c).credit j y = (s.entry c).credit j y := by
    rw [s.setEntry_entry_of_ne d e hc]
  have hsource (c : Dest) : ((s.setEntry d e).entry c).source = (s.entry c).source := by
    rw [State.setEntry_entry]
    split
    · next hc => rw [he, hc]
    · rfl
  have hchan (c : ChannelNo) : (s.setEntry d e).chanCredit c = s.chanCredit c :=
    chanCredit_congr rfl rfl hsource
  have hexchange : ∑ c, ((s.setEntry d e).entry c).credit j y + (s.entry d).credit j y
      = ∑ c, (s.entry c).credit j y + ((s.setEntry d e).entry d).credit j y := sum_exchange hother
  rw [State.setEntry_entry_self] at hexchange
  simp only [State.due, hchan]
  omega

/-- What a destination's source is credited with: the count of its class, and one record count for each
channel that records the destination (R109). -/
def State.share (s : State) (d : Dest) (x : Option Source) (j : Counter) (y : Source) : Nat :=
  credit (classCounter (s.entry d).cls) x j y + (s.recordingOn d).length * credit (some .record) x j y

/-- The map with the source of one destination left out. -/
def State.without (s : State) (d : Dest) : State := s.setEntry d { s.entry d with source := none }

theorem chanSource_withSource (s : State) (d : Dest) (x : Option Source) (c : ChannelNo) :
    (s.setEntry d { s.entry d with source := x }).chanSource c
      = if (s.chan c).bound = some d then x else s.chanSource c := by
  unfold State.chanSource
  rw [State.setEntry_chan]
  cases (s.chan c).bound with
  | none => simp
  | some b =>
    by_cases hb : b = d
    · simp [hb]
    · simp [hb, s.setEntry_entry_of_ne d _ hb]

/-- What is due with a source in an entry is what is due without it, and the share of the source. -/
theorem due_withSource (s : State) (d : Dest) (x : Option Source) (j : Counter) (y : Source) :
    (s.setEntry d { s.entry d with source := x }).due j y = (s.without d).due j y + s.share d x j y := by
  have hentries : ∑ c, ((s.setEntry d { s.entry d with source := x }).entry c).credit j y
      = ∑ c, ((s.without d).entry c).credit j y + credit (classCounter (s.entry d).cls) x j y := by
    have hexchange := sum_exchange (i := d) (f := fun c => ((s.without d).entry c).credit j y)
      (g := fun c => ((s.setEntry d { s.entry d with source := x }).entry c).credit j y) fun c hc => by
        rw [State.without, s.setEntry_entry_of_ne d _ hc, s.setEntry_entry_of_ne d _ hc]
    simpa [State.without, Entry.credit] using hexchange
  have hchan (c : ChannelNo) : (s.setEntry d { s.entry d with source := x }).chanCredit c j y
      = (s.without d).chanCredit c j y + if c ∈ (s.recordersOf d).toFinset then credit (some .record) x j y
        else 0 := by
    simp only [List.mem_toFinset, mem_recordersOf, State.chanCredit, State.without, chanSource_withSource,
      State.setEntry_chan]
    by_cases hr : (s.chan c).state = .recording
    · by_cases hb : (s.chan c).bound = some d
      · simp [Channel.counter_of_recording hr, hr, hb]
      · simp [hb]
    · simp [Channel.counter_of_ne hr, hr]
  have hchannels : ∑ c, (s.setEntry d { s.entry d with source := x }).chanCredit c j y
      = ∑ c, (s.without d).chanCredit c j y + (s.recordingOn d).length * credit (some .record) x j y := by
    rw [Finset.sum_congr rfl fun c _ => hchan c, Finset.sum_add_distrib, Finset.sum_ite_mem,
      Finset.univ_inter, Finset.sum_const, List.toFinset_card_of_nodup (recordersOf_nodup s d),
      recordingOn_eq, smul_eq_mul]
  rw [State.due, State.due, hentries, hchannels, State.share]
  omega

end Sys2Proof.Machine
end

section
/-! O56: the counts that move, and the colours that follow them (R109 to R113). -/

namespace Sys2Proof.Machine

/-! ### One count moves (R106) -/

section
variable (s : State)

theorem bump_count (k : Counter) (up : Bool) (x : Option Source) (j : Counter) (y : Source) :
    ((s.bump k up x).tallyOf y).count j = if up then (s.tallyOf y).count j + credit (some k) x j y
      else (s.tallyOf y).count j - credit (some k) x j y := by
  cases x with
  | none => simp [State.bump]
  | some z =>
    by_cases hz : y = z
    · subst hz
      rw [State.bump, State.setTally_tallyOf_self]
      by_cases hk : k = j
      · subst hk
        cases k <;> cases up <;> simp [Tally.bump, Tally.count, credit]
      · cases k <;> cases j <;> simp [Tally.bump, Tally.count, credit] at hk ⊢
    · have hne : some z ≠ some y := fun h => hz (Option.some.inj h).symm
      rw [State.bump, State.setTally_tallyOf_of_ne _ _ _ hz, credit_of_ne hne]
      simp

theorem bumpClass_count (c : DestClass) (up : Bool) (x : Option Source) (j : Counter) (y : Source) :
    ((s.bumpClass c up x).tallyOf y).count j
      = if up then (s.tallyOf y).count j + credit (classCounter c) x j y
        else (s.tallyOf y).count j - credit (classCounter c) x j y := by
  unfold State.bumpClass
  cases classCounter c with
  | none => simp
  | some k => exact bump_count s k up x j y

theorem moveCount_count (k : Counter) (old new : Option Source) (j : Counter) (y : Source) :
    ((s.moveCount k old new).tallyOf y).count j
      = (s.tallyOf y).count j - credit (some k) old j y + credit (some k) new j y := by
  simp [State.moveCount, bump_count]

variable {x : Option Source} {y : Source}

theorem bump_tallyOf_of_ne (h : x ≠ some y) (k : Counter) (up : Bool) :
    (s.bump k up x).tallyOf y = s.tallyOf y := by
  cases x with
  | none => rfl
  | some z => exact State.setTally_tallyOf_of_ne _ _ _ fun hy => h (congrArg some hy.symm)

theorem bumpClass_tallyOf_of_ne (h : x ≠ some y) (c : DestClass) (up : Bool) :
    (s.bumpClass c up x).tallyOf y = s.tallyOf y := by
  unfold State.bumpClass
  split
  · rfl
  · exact bump_tallyOf_of_ne s h _ up

theorem compareColour_tallyOf (x : Option Source) (y : Source) : (s.compareColour x).tallyOf y
    = if x = some y then { s.tallyOf y with colour := colourOf (s.tallyOf y) } else s.tallyOf y := by
  cases x with
  | none => rfl
  | some z =>
    obtain ⟨hself, hother, -⟩ := compareColour_moved (s := s) (y := z) (f := id) rfl rfl (fun _ _ => rfl)
      (fun _ => rfl) fun _ => rfl
    by_cases hz : z = y
    · subst hz
      rw [if_pos rfl]
      exact hself
    · rw [if_neg fun h => hz (Option.some.inj h)]
      exact hother y (Ne.symm hz)

end

/-! ### Some record counts of a source pass to another (R109) -/

theorem foldl_moveCount_count {ι : Type} (l : List ι) {s : State} {old new : Option Source} {j : Counter}
    {y : Source} {n : Nat}
    (h : (s.tallyOf y).count j = n + l.length * credit (some .record) old j y) :
    ((l.foldl (fun s _ => s.moveCount .record old new) s).tallyOf y).count j
      = n + l.length * credit (some .record) new j y := by
  induction l generalizing s n with
  | nil => simpa using h
  | cons c l ih =>
    rw [List.length_cons, Nat.succ_mul] at h ⊢
    rw [List.foldl_cons, ih (n := n + credit (some .record) new j y)]
    · omega
    · rw [moveCount_count, h]
      omega

/-- The counts of a source-change event have moved, and no colour is compared yet. -/
def State.countsMoved (s : State) (d : Dest) (old new : Option Source) : State :=
  (s.recordingOn d).foldl (fun s _ => s.moveCount .record old new)
    ((s.bumpClass (s.entry d).cls false old).bumpClass (s.entry d).cls true new)

section
variable {s : State} {d : Dest} {old new : Option Source}

theorem tallyChange_eq :
    s.tallyChange d old new = ((s.countsMoved d old new).compareColour old).compareColour new := rfl

theorem countsMoved_same (s : State) (d : Dest) (old new : Option Source) :
    SameBut [.tally] s (s.countsMoved d old new) :=
  ((bumpClass_same s _ _ _).trans (bumpClass_same _ _ _ _)).trans
    (SameBut.foldl (fun s _ => moveCount_same s .record old new) _ _)

/-- The share of the destination passes from the old source to the new. -/
theorem countsMoved_count {j : Counter} {y : Source} {n : Nat}
    (h : (s.tallyOf y).count j = n + s.share d old j y) :
    ((s.countsMoved d old new).tallyOf y).count j = n + s.share d new j y := by
  unfold State.share at h ⊢
  rw [State.countsMoved, foldl_moveCount_count (n := n + credit (classCounter (s.entry d).cls) new j y)]
  · omega
  · simp only [bumpClass_count, h, if_true, Bool.false_eq_true, if_false]
    omega

theorem countsMoved_tallyOf_of_ne {y : Source} (ho : old ≠ some y) (hn : new ≠ some y) :
    (s.countsMoved d old new).tallyOf y = s.tallyOf y := by
  refine foldl_keeps (f := fun s _ => s.moveCount .record old new) (I := fun u => u.tallyOf y = s.tallyOf y)
    (fun _ hu => ?_) _ ?_
  · rw [State.moveCount, bump_tallyOf_of_ne _ hn, bump_tallyOf_of_ne _ ho, hu]
  · rw [bumpClass_tallyOf_of_ne _ hn, bumpClass_tallyOf_of_ne _ ho]

end

/-! ### The law under the operations of the tally unit -/

section
variable {P : Source → Prop} {s t : State}

/-- What is due does not depend on the tally unit and the walls. -/
theorem due_of_same {ps : List Part} (h : SameBut ps s t) (hm : Part.map ∉ ps := by decide)
    (hr : Part.recorder ∉ ps := by decide) : t.due = s.due :=
  due_of_fields (fun d => by rw [entry_of_same h hm]; exact ⟨rfl, rfl⟩)
    fun c => by rw [chan_of_same h hr]; exact ⟨rfl, rfl⟩

/-- A colour that is compared is no longer owed. -/
theorem TallyLawOf.compareColour {x : Option Source} (hs : TallyLawOf (fun y => x = some y ∨ P y) s) :
    TallyLawOf P (s.compareColour x) := by
  refine ⟨fun j y => ?_, fun y hy => ?_⟩
  · rw [due_of_same (compareColour_same s x), ← hs.counts, compareColour_tallyOf]
    split
    · cases j <;> rfl
    · rfl
  · rw [compareColour_tallyOf]
    split
    · rfl
    · next hx => exact hs.colour y (not_or.2 ⟨hx, hy⟩)

/-- A source-change event of `d`: what is due has changed by the share of the sources, and the counts and
the colours follow. -/
theorem TallyLawOf.tallyChange {d : Dest} {old new : Option Source} {rest : Counter → Source → Nat}
    (hcount : ∀ j y, (s.tallyOf y).count j = rest j y + s.share d old j y)
    (hdue : ∀ j y, s.due j y = rest j y + s.share d new j y)
    (hcolour : ∀ y, ¬ P y → (s.tallyOf y).colour = colourOf (s.tallyOf y)) :
    TallyLawOf P (s.tallyChange d old new) := by
  rw [tallyChange_eq]
  refine TallyLawOf.compareColour (TallyLawOf.compareColour ⟨fun j y => ?_, fun y hy => ?_⟩)
  · rw [countsMoved_count (hcount j y), due_of_same (countsMoved_same s d old new), hdue]
  · obtain ⟨ho, hn, hy⟩ : old ≠ some y ∧ new ≠ some y ∧ ¬ P y := by simpa using hy
    rw [countsMoved_tallyOf_of_ne ho hn]
    exact hcolour y hy

theorem due_eq_without (s : State) (d : Dest) (j : Counter) (y : Source) :
    s.due j y = (s.without d).due j y + s.share d (s.entry d).source j y := by
  rw [← due_withSource, setEntry_self]

/-- A source is written, and the walls and the tally unit are handed the event (R9, R109). -/
theorem TallyLawOf.sourceShown (hs : TallyLawOf P s) (d : Dest) (x : Option Source) :
    TallyLawOf P ((s.setEntry d { s.entry d with source := x }).sourceShown d (s.entry d).source x) := by
  have hshown := announceDest_same (s.setEntry d { s.entry d with source := x }) d
  generalize hu : (s.setEntry d { s.entry d with source := x }).announceDest d = u at hshown
  have htally (y : Source) : u.tallyOf y = s.tallyOf y :=
    congrArg (fun v : Vector Tally 1024 => v[y]) (hshown .tally (by decide))
  have hshare (z : Option Source) (j : Counter) (y : Source) : u.share d z j y = s.share d z j y := by
    have hrecorder : u.recorder = s.recorder := hshown .recorder (by decide)
    rw [State.share, entry_of_same hshown, State.setEntry_entry_self, State.recordingOn, hrecorder]
    rfl
  rw [State.sourceShown, hu]
  refine TallyLawOf.tallyChange (rest := (s.without d).due) (fun j y => ?_) (fun j y => ?_) fun y hy => ?_
  · rw [htally, hs.counts, hshare, ← due_eq_without]
  · rw [due_of_same hshown, due_withSource, hshare]
  · rw [htally]
    exact hs.colour y hy

/-- The class of a destination is written, and the counts of its source follow (R110). -/
theorem TallyLawOf.tallyClass (hs : TallyLawOf P s) {d : Dest} {e : Entry}
    (he : e.source = (s.entry d).source) :
    TallyLawOf P ((s.setEntry d e).tallyClass (s.entry d).cls e.cls (s.entry d).source) := by
  have hmoved := (bumpClass_same (s.setEntry d e) (s.entry d).cls false (s.entry d).source).trans
    (bumpClass_same _ e.cls true (s.entry d).source)
  refine TallyLawOf.compareColour ⟨fun j y => ?_, fun y hy => ?_⟩
  · have hleft := due_setEntry s (e := { s.entry d with cls := .unclassed }) rfl j y
    have hwritten := due_setEntry s he j y
    have hnone : classCounter .unclassed = none := rfl
    simp only [Entry.credit, hnone, credit_none_counter, he] at hleft hwritten
    simp only [due_of_same hmoved, bumpClass_count, State.setEntry_tallyOf, hs.counts, if_true,
      Bool.false_eq_true, if_false]
    omega
  · obtain ⟨hx, hy⟩ := not_or.1 hy
    rw [bumpClass_tallyOf_of_ne _ hx, bumpClass_tallyOf_of_ne _ hx]
    exact hs.colour y hy

end

/-- A channel's count moves, and the colour of its source is compared; an unbound channel has none. -/
theorem tallyChannel_eq (s : State) (c : ChannelNo) (up : Bool) :
    s.tallyChannel c up = (s.bump .record up (s.chanSource c)).compareColour (s.chanSource c) := by
  unfold State.tallyChannel State.chanSource
  cases (s.chan c).bound with
  | none => rfl
  | some d => rfl

/-! ### The channels of a RECORDERS block reset (R150) -/

theorem mem_recordedSources {s : State} {y : Source} :
    y ∈ s.recordedSources ↔ ∃ c, (s.chan c).state = .recording ∧ s.chanSource c = some y := by
  rw [State.recordedSources, List.mem_insertionSort, List.mem_dedup, List.mem_filterMap]
  refine exists_congr fun c => and_congr_left' ?_
  rw [mem_select]
  exact beq_iff_eq

theorem resetChannel_chan_of_ne (s : State) {b c : ChannelNo} (h : b ≠ c) :
    (s.resetChannel c).chan b = s.chan b := by
  unfold State.resetChannel
  dsimp only
  rw [State.setChan_chan_of_ne _ _ _ h]
  split
  · rfl
  · rw [State.raiseRec, State.raise_chan, State.issueHalt, issue_chan]
    split
    · rw [chan_of_same (bump_same _ _ _ _), State.setChan_chan_of_ne _ _ _ h]
    · rw [State.setChan_chan_of_ne _ _ _ h]

theorem resetChannel_state (s : State) (c : ChannelNo) : ((s.resetChannel c).chan c).state = .idle := by
  unfold State.resetChannel
  dsimp only
  rw [State.setChan_chan_self]
  split
  · next h => exact beq_iff_eq.1 h
  · rw [State.raiseRec, State.raise_chan, State.issueHalt, issue_chan]
    split
    · rw [chan_of_same (bump_same _ _ _ _), State.setChan_chan_self]
    · rw [State.setChan_chan_self]

/-- A channel that still records after the reset of another has recorded the same source before it. -/
theorem resetChannel_recording {s : State} {P : Source → Prop}
    (h : ∀ b, (s.chan b).state = .recording → ∀ y, s.chanSource b = some y → P y) (c b : ChannelNo)
    (hst : ((s.resetChannel c).chan b).state = .recording) (y : Source)
    (hy : (s.resetChannel c).chanSource b = some y) : P y := by
  by_cases hbc : b = c
  · subst hbc
    rw [resetChannel_state] at hst
    exact nomatch hst
  · have hchan := resetChannel_chan_of_ne s hbc
    rw [chanSource_of_same (resetChannel_same s c) (hb := congrArg Channel.bound hchan)] at hy
    exact h b (hchan ▸ hst) y hy

/-! ### Writes that move no count -/

namespace TallyLawOf

variable {P : Source → Prop} {s : State} (hs : TallyLawOf P s)
include hs

theorem setEntry {d : Dest} {e : Entry} (hc : e.cls = (s.entry d).cls)
    (hx : e.source = (s.entry d).source) : TallyLawOf P (s.setEntry d e) := by
  refine hs.of_due rfl (due_of_fields (fun c => ?_) fun c => ⟨rfl, rfl⟩)
  rw [State.setEntry_entry]
  split
  · next h => exact h ▸ ⟨hc, hx⟩
  · exact ⟨rfl, rfl⟩

/-- A channel is written that adds what it added. -/
theorem setChan_of_credit {c : ChannelNo} {r : Channel}
    (h : ∀ j y, (s.setChan c r).chanCredit c j y = s.chanCredit c j y) : TallyLawOf P (s.setChan c r) := by
  refine hs.of_due rfl (funext fun j => funext fun y => ?_)
  have hexchange := due_setChan s c r j y
  rw [h] at hexchange
  exact Nat.add_right_cancel hexchange

/-- A channel keeps its state and its binding. -/
theorem setChan {c : ChannelNo} {r : Channel} (hst : r.state = (s.chan c).state)
    (hb : r.bound = (s.chan c).bound) : TallyLawOf P (s.setChan c r) :=
  hs.setChan_of_credit fun j y => by
    have hcredit : (s.setChan c r).chanCredit c = s.chanCredit c := chanCredit_congr
      (by rwa [State.setChan_chan_self]) (by rwa [State.setChan_chan_self]) fun _ => rfl
    rw [hcredit]

/-- A channel is in RECORDING neither before nor after. -/
theorem setChan_of_ne {c : ChannelNo} {r : Channel} (hst : (s.chan c).state ≠ .recording)
    (hr : r.state ≠ .recording) : TallyLawOf P (s.setChan c r) :=
  hs.setChan_of_credit fun _ _ => by
    rw [State.chanCredit, State.chanCredit, State.setChan_chan_self, Channel.counter_of_ne hst,
      Channel.counter_of_ne hr, credit_none_counter, credit_none_counter]

theorem withRecorder {r : Recorder} (h : r.channels = s.recorder.channels) :
    TallyLawOf P { s with recorder := r } :=
  hs.of_due rfl (due_of_fields (fun _ => ⟨rfl, rfl⟩) fun c => by
    have hchan : State.chan { s with recorder := r } c = s.chan c := congrArg (·[c]) h
    rw [hchan]
    exact ⟨rfl, rfl⟩)

theorem raise (n : Notice) : TallyLawOf P (s.raise n) := hs.of_same (raise_same s n) rfl

theorem flushHigh : TallyLawOf P s.flushHigh :=
  foldl_keeps (fun n hu => hu.raise n) _ (hs.withRecorder rfl)

theorem issue (c : ChannelNo) (op : RecOp) (g : Group) (f : FrameNo) : TallyLawOf P (s.issue c op g f) :=
  hs.withRecorder (s.recorder.issue_keeps c op g f).1

theorem issueHalt (c : ChannelNo) : TallyLawOf P (s.issueHalt c) := hs.issue c _ _ _

theorem logMark (c : ChannelNo) (m : Mark) : TallyLawOf P (s.logMark c m) := by
  have hlogged := hs.setChan (Channel.log_state (s.chan c) m) (Channel.log_bound (s.chan c) m)
  unfold State.logMark
  dsimp only
  split
  · exact hlogged.withRecorder rfl
  · exact hlogged

theorem splitChannel (g : Group) (f : FrameNo) (k : ChangeCause) (old new : Option Source) (c : ChannelNo) :
    TallyLawOf P (s.splitChannel g f k old new c) := by
  have hclip := hs.setChan (c := c) (r := { s.chan c with clip := (s.chan c).clip + 1 }) rfl rfl
  exact (hclip.issue c _ g f).logMark c _

theorem splitRecorders (d : Dest) (k : ChangeCause) (old new : Option Source) :
    TallyLawOf P (s.splitRecorders d k old new) :=
  foldl_keeps (fun c hu => hu.splitChannel _ _ k old new c) _ hs

theorem splitLost (before : State) : TallyLawOf P (s.splitLost before) :=
  foldl_keeps (fun c hu => hu.splitChannel _ _ .lost _ _ c) _ hs

theorem logSuspect (d : Dest) : TallyLawOf P (s.logSuspect d) :=
  foldl_keeps (fun c hu => hu.logMark c _) _ hs

/-! ### The source-change event (R9 to R11) -/

theorem writeSource (d : Dest) (x : Option Source) (k : ChangeCause) : TallyLawOf P (s.writeSource d x k) := by
  unfold State.writeSource
  dsimp only
  split
  · exact hs
  · exact (hs.sourceShown d x).splitRecorders d k _ x

theorem clearSource (d : Dest) : TallyLawOf P (s.clearSource d) := hs.sourceShown d none

/-! ### Channels enter RECORDING and leave it (R111, R112) -/

/-- A channel enters RECORDING, and its source has its record count. -/
theorem countUp {c : ChannelNo} {r : Channel} (hst : (s.chan c).state ≠ .recording)
    (hr : r.state = .recording) :
    TallyLawOf (fun y => (s.setChan c r).chanSource c = some y ∨ P y)
      ((s.setChan c r).bump .record true ((s.setChan c r).chanSource c)) := by
  refine ⟨fun j y => ?_, fun y hy => ?_⟩
  · have hexchange := due_setChan s c r j y
    rw [State.chanCredit, Channel.counter_of_ne hst, credit_none_counter, State.chanCredit,
      State.setChan_chan_self, Channel.counter_of_recording hr] at hexchange
    rw [bump_count, if_pos rfl, due_of_same (bump_same _ _ _ _), State.setChan_tallyOf, hs.counts]
    omega
  · obtain ⟨hx, hy⟩ := not_or.1 hy
    rw [bump_tallyOf_of_ne _ hx]
    exact hs.colour y hy

/-- A channel leaves RECORDING, and its source has lost its record count. -/
theorem countDown {c : ChannelNo} {r : Channel} (hst : (s.chan c).state = .recording)
    (hr : r.state ≠ .recording) (hb : r.bound = (s.chan c).bound) :
    TallyLawOf (fun y => (s.setChan c r).chanSource c = some y ∨ P y)
      ((s.setChan c r).bump .record false ((s.setChan c r).chanSource c)) := by
  have hsource : (s.setChan c r).chanSource c = s.chanSource c :=
    chanSource_of_same (setChan_same s c r) (hb := by rwa [State.setChan_chan_self])
  refine ⟨fun j y => ?_, fun y hy => ?_⟩
  · have hexchange := due_setChan s c r j y
    rw [State.chanCredit, Channel.counter_of_recording hst, State.chanCredit, State.setChan_chan_self,
      Channel.counter_of_ne hr, credit_none_counter] at hexchange
    rw [bump_count, if_neg Bool.false_ne_true, due_of_same (bump_same _ _ _ _), State.setChan_tallyOf,
      hs.counts, hsource]
    omega
  · obtain ⟨hx, hy⟩ := not_or.1 hy
    rw [bump_tallyOf_of_ne _ hx]
    exact hs.colour y hy

theorem enterRecording {c : ChannelNo} (h : (s.chan c).state ≠ .recording) (k : RecCause) :
    TallyLawOf P (s.enterRecording c k) := by
  have hcounted := (hs.countUp h (r := { s.chan c with state := .recording, cue := none }) rfl).compareColour
  rw [← tallyChannel_eq] at hcounted
  exact (hcounted.logMark c _).raise _

theorem recStart (c : ChannelNo) (k : RecCause) : TallyLawOf P (s.recStart c k).2 := by
  unfold State.recStart
  dsimp only
  split
  · exact hs
  · split
    · exact hs
    · next hidle =>
      have hst : (s.chan c).state = .idle := by simpa using hidle
      generalize hu : (s.setChan c { s.chan c with clip := (s.chan c).clip + 1 }).issue c
        (.roll ((s.chan c).clip + 1)) (s.chanGroup c) (s.stamp (s.chanGroup c)) = u
      have hissued : TallyLawOf P u :=
        hu ▸ (hs.setChan (r := { s.chan c with clip := (s.chan c).clip + 1 }) rfl rfl).issue c _ _ _
      have hleft : (u.chan c).state ≠ .recording := by
        rw [← hu, issue_chan, State.setChan_chan_self]
        simp [hst]
      split
      · exact hissued.enterRecording hleft k
      · exact (hissued.setChan_of_ne (r := { u.chan c with state := .cueing, cue := some (s.chan c).lead })
          hleft nofun).raise _

theorem recStop (c : ChannelNo) (k : RecCause) : TallyLawOf P (s.recStop c k) := by
  unfold State.recStop
  dsimp only
  split
  · exact hs
  · next hst =>
    have hidle := hs.setChan_of_ne (c := c) (r := { s.chan c with state := .idle, cue := none })
      (by simp [hst]) nofun
    exact (hidle.issueHalt c).raise _
  · next hst =>
    generalize (⟨.stop, s.chanGroup c, s.stamp (s.chanGroup c), (s.chan c).clip,
      some (s.chanSource c), none⟩ : Mark) = m
    have hstopped := ((hs.logMark c m).countDown (c := c)
      (r := { (s.logMark c m).chan c with state := .idle }) (by rw [logMark_chan_self, Channel.log_state, hst])
      nofun rfl).compareColour
    rw [← tallyChannel_eq] at hstopped
    exact (hstopped.issueHalt c).raise _

theorem cueBoundary {c : ChannelNo} (h : (s.chan c).state ≠ .recording) : TallyLawOf P (s.cueBoundary c) := by
  cases hc : s.cueEnds c with
  | true => rw [cueBoundary_ends hc]; exact hs.enterRecording h _
  | false => rw [cueBoundary_lowers hc]; exact hs.setChan rfl rfl

/-- The channels that cue at a boundary are taken one after the other, each still in CUEING. -/
theorem foldl_cueBoundary {l : List ChannelNo} (hl : l.Nodup)
    (h : ∀ c ∈ l, (s.chan c).state ≠ .recording) : TallyLawOf P (l.foldl State.cueBoundary s) := by
  induction l generalizing s with
  | nil => exact hs
  | cons c l ih =>
    obtain ⟨hcl, hl⟩ := List.nodup_cons.1 hl
    refine ih (hs.cueBoundary (h c List.mem_cons_self)) hl fun b hb => ?_
    rw [cueBoundary_chan_of_ne s (ne_of_mem_of_not_mem hb hcl)]
    exact h b (List.mem_cons_of_mem c hb)

theorem recordersAtBoundary (g : Group) : TallyLawOf P (s.recordersAtBoundary g) :=
  hs.foldl_cueBoundary (cueing_nodup s g) fun c hc => by simp [(mem_cueing.1 hc).1]

/-! ### The RECORDERS block reset (R150) -/

/-- A channel is reset; the colour of the source that it has recorded is left to be compared. -/
theorem resetChannel {c : ChannelNo}
    (hP : (s.chan c).state = .recording → ∀ y, s.chanSource c = some y → P y) :
    TallyLawOf P (s.resetChannel c) := by
  unfold State.resetChannel
  dsimp only
  refine TallyLawOf.setChan ?_ rfl rfl
  split
  · exact hs
  · refine TallyLawOf.raise (TallyLawOf.issueHalt ?_ c) _
    by_cases hr : (s.chan c).state = .recording
    · have hsource : (s.setChan c { s.chan c with state := .idle, cue := none }).chanSource c
          = s.chanSource c := chanSource_of_same (setChan_same s c _) (hb := by rw [State.setChan_chan_self])
      rw [if_pos (by simp [hr])]
      exact (hs.countDown (r := { s.chan c with state := .idle, cue := none }) hr nofun rfl).mono
        fun y hy => hy.elim (fun h => hP hr y (hsource ▸ h)) id
    · rw [if_neg (by simp [hr])]
      exact hs.setChan_of_ne hr nofun

omit hs in
/-- The colours that are owed are compared one after the other. -/
theorem compareColours {l : List Source} (hs : TallyLawOf (fun y => y ∈ l ∨ P y) s) :
    TallyLawOf P (l.foldl (fun s x => s.compareColour (some x)) s) := by
  induction l generalizing s with
  | nil => exact hs.mono (by simp)
  | cons x l ih =>
    refine ih (TallyLawOf.compareColour (hs.mono fun y hy => ?_))
    simpa [or_assoc, eq_comm] using hy

/-- Every channel gives back its count, and then the sources that were recorded are compared. -/
theorem resetRecorders : TallyLawOf P s.resetRecorders := by
  obtain ⟨hlaw, -⟩ := foldl_keeps (I := fun u => TallyLawOf (fun y => y ∈ s.recordedSources ∨ P y) u
      ∧ ∀ c, (u.chan c).state = .recording → ∀ y, u.chanSource c = some y → y ∈ s.recordedSources)
    (fun c ⟨hu, hrec⟩ => ⟨hu.resetChannel fun hst y hy => .inl (hrec c hst y hy),
      resetChannel_recording hrec c⟩) (List.finRange 16)
    ⟨hs.mono fun _ hy => .inr hy, fun c hst y hy => mem_recordedSources.2 ⟨c, hst, hy⟩⟩
  exact compareColours hlaw

end TallyLawOf

end Sys2Proof.Machine
end

section
/-! O56: takes, reports and boundaries leave the counts as they are, but for the sources they write and the
channels that enter RECORDING. -/

namespace Sys2Proof.Machine

namespace TallyLawOf

variable {P : Source → Prop} {s : State} (hs : TallyLawOf P s)
include hs

/-! ### The map -/

/-- Every entry keeps its class and its source. -/
theorem of_entries {ps : List Part} {t : State} (h : SameBut ps s t)
    (he : ∀ d, (t.entry d).cls = (s.entry d).cls ∧ (t.entry d).source = (s.entry d).source)
    (ht : Part.tally ∉ ps := by decide) (hr : Part.recorder ∉ ps := by decide) : TallyLawOf P t :=
  hs.of_due (h .tally ht) (due_of_fields he fun c => by rw [chan_of_same h hr]; exact ⟨rfl, rfl⟩)

/-- One entry is written, and keeps its class and its source. -/
theorem of_map {ps : List Part} {t : State} {d : Dest} {e : Entry} (h : SameBut ps s t)
    (hm : t.map = (s.setEntry d e).map) (hc : e.cls = (s.entry d).cls)
    (hx : e.source = (s.entry d).source) (ht : Part.tally ∉ ps := by decide)
    (hr : Part.recorder ∉ ps := by decide) : TallyLawOf P t := by
  refine hs.of_entries h (fun c => ?_) ht hr
  obtain ⟨-, -, hother⟩ := onlyEntry_of_map hm
  by_cases hcd : c = d
  · rw [hcd, entry_of_map hm]
    exact ⟨hc, hx⟩
  · rw [hother c hcd]
    exact ⟨rfl, rfl⟩

theorem setSuspect (d : Dest) (v : Bool) : TallyLawOf P (s.setSuspect d v) :=
  hs.of_map (setSuspect_same s d v) (setSuspect_map s d v) rfl rfl

theorem setLock (d : Dest) (v : Option PanelNo) : TallyLawOf P (s.setLock d v) := by
  unfold State.setLock
  split
  · exact hs
  · exact (hs.setEntry (e := { s.entry d with lock := v }) rfl rfl).of_same (announceDest_same _ d) rfl

theorem setProtect (d : Dest) (v : Level) : TallyLawOf P (s.setProtect d v) := by
  unfold State.setProtect
  split
  · exact hs
  · exact (hs.setEntry (e := { s.entry d with protect := v }) rfl rfl).of_same (announceDest_same _ d) rfl

/-! ### Takes -/

theorem setPending (d : Dest) (p : Pending) : TallyLawOf P (s.setPending d p) := hs.setEntry rfl rfl

theorem setToken (t : Token) (c : TokenState) : TallyLawOf P (s.setToken t c) :=
  hs.of_same (setToken_same s t c) rfl

theorem withLink (l : Link) : TallyLawOf P { s with link := l } := hs.of_same (withLink_same s l) rfl

theorem endNext (d : Dest) (r : TakeResult) : TallyLawOf P (s.endNext d r) :=
  hs.of_map (endNext_same s d r) (endNext_map s d r) rfl rfl

theorem endPending (d : Dest) (r : TakeResult) : TallyLawOf P (s.endPending d r) := by
  cases hp : (s.entry d).pending with
  | none => rwa [State.endPending, hp]
  | some p =>
    refine hs.of_entries (endPending_same s d r) fun c => ?_
    by_cases hcd : c = d
    · subst hcd
      obtain ⟨-, h⟩ | h | ⟨-, n, pl, h⟩ := endPending_entry_self hp r <;> rw [h] <;> exact ⟨rfl, rfl⟩
    · rw [endPending_entry_of_ne s hcd]
      exact ⟨rfl, rfl⟩

theorem requestToken (d : Dest) : TallyLawOf P (s.requestToken d) := by
  unfold State.requestToken
  split
  · exact hs
  · split
    · exact ((hs.setToken _ _).setPending d _).withLink _
    · exact (hs.setPending d _).withLink _

theorem dispatchDue (ds : List Dest) : TallyLawOf P (s.dispatchDue ds) :=
  dispatchDue_keeps (fun d _ hu => hu.requestToken d) ds hs

theorem freeToken (t : Token) : TallyLawOf P (s.freeToken t) := by
  unfold State.freeToken State.grantWaiting
  split
  · exact hs.setToken t _
  · have hlent := (hs.setToken t .inUse).withLink
    dsimp only
    split
    · exact hlent _
    · exact ((hlent _).setPending _ _).withLink _

theorem timeOut (d : Dest) : TallyLawOf P (s.timeOut d) := by
  have hsuspect := hs.setSuspect d true
  unfold State.timeOut
  split
  · exact hs
  · refine endPending (logSuspect ?_ d) d _
    split
    · exact hsuspect
    · exact hsuspect.setToken _ _

theorem treatTake (b : Boundary) (d : Dest) : TallyLawOf P (s.treatTake b d) := by
  unfold State.treatTake
  split
  · exact hs
  · split
    · split <;> exact hs.setPending d _
    · exact hs.setPending d _
    · split <;> exact hs.setPending d _
    · split
      · exact hs.timeOut d
      · exact hs.setPending d _

theorem takesAtBoundary (b : Boundary) : TallyLawOf P (s.takesAtBoundary b) := by
  unfold State.takesAtBoundary
  refine foldl_keeps (fun d hu => ?_) _ (foldl_keeps (fun d hu => hu.treatTake b d) _ hs)
  split
  · exact hu.requestToken d
  · exact hu

theorem arrive (d : Dest) (n : NextTake) (pl : Placement) : TallyLawOf P (s.arrive d n pl).2 := by
  obtain ⟨hcls, hsource⟩ : ((s.entry d).received n pl).cls = (s.entry d).cls
      ∧ ((s.entry d).received n pl).source = (s.entry d).source := by
    unfold Entry.received
    split <;> exact ⟨rfl, rfl⟩
  exact hs.of_map (arrive_same s d n pl) (arrive_map s d n pl) hcls hsource

theorem serveTake (o : Order) : TallyLawOf P (Machine.serveTake o s).state := by
  unfold Machine.serveTake
  split
  · next d x p _ _ _ =>
    split
    · exact hs
    · have harrive := hs.arrive d ⟨x, p, o.ticket, none⟩ (s.placement (s.entry d).group)
      dsimp only
      split <;> rename_i heq <;> rw [heq] at harrive
      · exact harrive
      · exact harrive.dispatchDue [d]
  · exact hs

/-! ### Salvos -/

omit hs in
theorem fireEntry {acc : FireAccount × State} (hs : TallyLawOf P acc.2) (k : SlotNo) (owner : PanelNo)
    (pl : Placement) (e : Dest × Source) : TallyLawOf P (Machine.fireEntry k owner pl acc e).2 := by
  obtain ⟨a, s⟩ := acc
  cases hc : s.accessCheck owner e.1 (some e.2) with
  | some v => rwa [fireEntry_refused hc]
  | none =>
    rw [fireEntry_accepted hc]
    exact hs.arrive e.1 _ pl

omit hs in
theorem fireEntries {acc : FireAccount × State} (hs : TallyLawOf P acc.2) (k : SlotNo) (owner : PanelNo)
    (pl : Placement) (l : List (Dest × Source)) :
    TallyLawOf P (l.foldl (Machine.fireEntry k owner pl) acc).2 := by
  induction l generalizing acc with
  | nil => exact hs
  | cons e l ih => exact ih (hs.fireEntry k owner pl e)

theorem fire (k : SlotNo) : TallyLawOf P (s.fire k).state := by
  unfold State.fire
  dsimp only
  split
  · exact hs
  · split
    · exact hs
    · split
      · exact hs
      · have hfired := fireEntries (acc := (FireAccount.start, s)) hs k (s.slot k).owner
          (s.placement (s.slot k).group) (s.slot k).entries
        exact (hfired.of_same (setSlot_same _ k _) rfl).dispatchDue _

/-! ### The matrix link -/

theorem setLink (v : LinkState) (k : LinkCause) : TallyLawOf P (s.setLink v k) :=
  hs.of_same (setLink_same s v k) rfl

theorem unmatch : TallyLawOf P s.unmatch := hs.withLink _

theorem startSurvey : TallyLawOf P s.startSurvey := hs.of_same (startSurvey_same s) rfl

theorem linkDown (k : LinkCause) : TallyLawOf P (s.linkDown k) := by
  unfold State.linkDown
  split
  · exact hs
  · exact (hs.withLink _).setLink _ _
  · have hcancelled : TallyLawOf P (s.setLink .down k).cancelAll :=
      foldl_keeps (fun d hu => (hu.endPending d _).endNext d _) _ (hs.setLink .down k)
    exact hcancelled.withLink _

theorem resetLink : TallyLawOf P s.resetLink := by
  have hdown := (hs.linkDown .blockReset).withLink
    { (s.linkDown .blockReset).link with unmatched := 0 }
  unfold State.resetLink
  dsimp only
  split
  · exact hdown.startSurvey
  · exact hdown

theorem applyMatched (d : Dest) (x : Source) (t : Token) (held : Nat) :
    TallyLawOf P (s.applyMatched d x t held) := by
  unfold State.applyMatched
  split
  · exact hs
  · next p _ =>
    have hmeasured := (hs.freeToken t).of_same (withSched_same _ ((s.freeToken t).measure p held).sched) rfl
    exact (((hmeasured.writeSource d (some x) .cut).setSuspect d false).endPending d _).dispatchDue [d]

theorem applyForeign (d : Dest) (x : Source) (t : Byte) (b : Bool) :
    TallyLawOf P (s.applyForeign d x t b) := by
  have hwritten := (hs.writeSource d (some x) .foreign).setSuspect d false
  unfold State.applyForeign
  dsimp only
  split
  · exact hwritten
  · exact hwritten.raise _

theorem upReport (r : Report) : TallyLawOf P (s.upReport r) := by
  unfold State.upReport
  split
  · split
    · exact hs.unmatch
    · split
      · exact hs.applyMatched _ _ _ _
      · exact (hs.freeToken _).applyForeign _ _ _ _
      · exact hs.applyForeign _ _ _ _
      · exact hs.unmatch.applyForeign _ _ _ _
  · exact hs.unmatch

theorem report (r : Report) : TallyLawOf P (s.report r) := by
  unfold State.report State.surveyReport
  split
  · exact hs
  · split
    · exact (hs.writeSource _ _ _).setSuspect _ _
    · exact hs.unmatch
  · exact hs.upReport r

theorem endSurvey (dests sources : Nat) : TallyLawOf P (s.endSurvey dests sources) := by
  unfold State.endSurvey
  split
  · exact hs
  · exact hs.unmatch
  · have hdeclared := hs.of_entries (withMap_same s { s.map with
      dests := clamp 1 512 dests, sources := clamp 1 1024 sources }) fun _ => ⟨rfl, rfl⟩
    exact ((foldl_keeps (fun d hu => hu.clearSource d) _ hdeclared).splitLost _).setLink _ _

theorem matrixBody (body : List Byte) : TallyLawOf P (s.matrixBody body) := by
  unfold State.matrixBody
  split
  · exact hs.report _
  · split
    · exact hs.endSurvey _ _
    · exact hs.unmatch

theorem matrixByte (b : Byte) : TallyLawOf P (s.matrixByte b) := by
  have htaken := hs.withLink { s.link with receiver := (receiverTake s.link.receiver b).1 }
  unfold State.matrixByte
  dsimp only
  split
  · exact htaken
  · exact htaken.unmatch
  · exact (htaken.matrixBody _).flushHigh

theorem endMatrixGap : TallyLawOf P s.endMatrixGap := hs.of_same (endMatrixGap_same s) rfl

theorem matrixBytes (bytes : List Byte) : TallyLawOf P (s.matrixBytes bytes) := by
  unfold State.matrixBytes
  split
  · exact hs
  · exact foldl_keeps (fun b hu => hu.matrixByte b) bytes (hs.endMatrixGap.withLink _)

/-! ### Trigger inputs -/

theorem setTrig (i : InputNo) (r : Trigger) : TallyLawOf P (s.setTrig i r) :=
  hs.of_same (setTrig_same s i r) rfl

theorem edgeAct (r : Trigger) (rising : Bool) : TallyLawOf P (s.edgeAct r rising).state := by
  unfold State.edgeAct
  split
  · exact hs.fire _
  · exact hs.recStart _ _
  · exact hs.recStop _ _
  · split
    · exact hs.recStart _ _
    · exact hs.recStop _ _
  · exact hs

theorem qualify (i : InputNo) : TallyLawOf P (s.qualify i) := by
  have hacted := ((hs.setTrig i { s.trig i with level := (s.trig i).raw, interval := none }).edgeAct
    { s.trig i with level := (s.trig i).raw, interval := none } (s.trig i).raw).flushHigh
  unfold State.qualify
  dsimp only
  split
  · exact hacted.raise _
  · exact hacted

theorem startInterval (i : InputNo) : TallyLawOf P (s.startInterval i) := by
  have hstarted := hs.setTrig i { s.trig i with interval := some ⟨s.now, (s.trig i).q.toNat⟩ }
  unfold State.startInterval
  dsimp only
  split
  · exact hstarted.qualify i
  · exact hstarted

theorem rawChange (i : InputNo) (b : Bool) : TallyLawOf P (s.rawChange i b) := by
  have hraw := hs.setTrig i { s.trig i with raw := b }
  unfold State.rawChange
  dsimp only
  split
  · exact hraw.setTrig i _
  · split
    · exact hraw.startInterval i
    · exact hraw

/-! ### Reference groups -/

theorem clock (τ : Nat) : TallyLawOf P (s.clock τ) := hs.of_same (clock_same s τ) rfl

theorem setGrp (g : Group) (r : GroupRec) : TallyLawOf P (s.setGrp g r) := hs.of_same (setGrp_same s g r) rfl

theorem handOn (b : Boundary) (order : FollowerOrder) : TallyLawOf P (s.handOn b order) := by
  have ht {u : State} (hu : TallyLawOf P u) := hu.takesAtBoundary b
  have hw {u : State} (hu : TallyLawOf P u) := hu.of_same (wallsAtBoundary_same u b.group b.frame) rfl
  have hr {u : State} (hu : TallyLawOf P u) := hu.recordersAtBoundary b.group
  cases order with
  | takesWallsRecorders => exact hr (hw (ht hs))
  | takesRecordersWalls => exact hw (hr (ht hs))
  | wallsTakesRecorders => exact hr (ht (hw hs))
  | wallsRecordersTakes => exact ht (hr (hw hs))
  | recordersTakesWalls => exact hw (ht (hr hs))
  | recordersWallsTakes => exact ht (hw (hr hs))

theorem boundary (g : Group) (time : Nat) (state : RefState) (p : Nat) (en : Bool) (k : Option RefKind)
    (order : FollowerOrder) : TallyLawOf P (s.boundary g time state p en k order) := by
  unfold State.boundary
  dsimp only
  split
  · exact hs
  · exact ((hs.setGrp g _).of_same (raiseRef_same _ g k) rfl).handOn _ order

theorem expireTolerance (g : Group) (order : FollowerOrder) : TallyLawOf P (s.expireTolerance g order) :=
  (hs.clock _).boundary g _ _ _ _ _ order

theorem freewheel (g : Group) (order : FollowerOrder) : TallyLawOf P (s.freewheel g order) :=
  (hs.clock _).boundary g _ _ _ _ _ order

theorem edge (g : Group) (order : FollowerOrder) : TallyLawOf P (s.edge g order) := by
  unfold State.edge State.edgeLocked State.recapture
  dsimp only
  split
  · exact hs
  · split <;> exact hs.boundary g _ _ _ _ _ order
  · split
    · exact hs.boundary g _ _ _ _ _ order
    · exact (hs.setGrp g _).of_same (raiseRef_same _ g _) rfl

theorem serveRefSet (order : FollowerOrder) (o : Order) :
    TallyLawOf P (Machine.serveRefSet order o s).state := by
  unfold Machine.serveRefSet
  split
  · split
    · exact (hs.setGrp _ _).boundary _ _ _ _ _ _ order
    · exact hs.setGrp _ _
  · exact hs

end TallyLawOf

end Sys2Proof.Machine
end

section
/-! O56: the orders, the resets, and every command. -/

namespace Sys2Proof.Machine

namespace TallyLawOf

variable {P : Source → Prop} {s : State} (hs : TallyLawOf P s)
include hs

/-! ### The orders -/

theorem serveDestSet (o : Order) : TallyLawOf P (Machine.serveDestSet o s).state := by
  unfold Machine.serveDestSet
  split
  · next d c g _ _ _ =>
    dsimp only
    split
    · exact hs
    · split
      · next hc => exact hs.setEntry hc rfl
      · exact hs.tallyClass (e := { s.entry d with cls := c, group := g }) rfl
  · exact hs

theorem serveLock (o : Order) : TallyLawOf P (Machine.serveLock o s).state := by
  unfold Machine.serveLock
  split
  · split
    · exact hs
    · exact hs.setLock _ _
  · exact hs

theorem serveUnlock (o : Order) : TallyLawOf P (Machine.serveUnlock o s).state := by
  unfold Machine.serveUnlock
  split
  · split
    · exact hs
    · split
      · exact hs.setLock _ _
      · exact hs
  · exact hs

theorem serveProtect (o : Order) : TallyLawOf P (Machine.serveProtect o s).state := by
  unfold Machine.serveProtect
  split
  · split
    · exact hs
    · exact hs.setProtect _ _
  · exact hs

theorem serveSalvoFire (o : Order) : TallyLawOf P (Machine.serveSalvoFire o s).state := by
  unfold Machine.serveSalvoFire
  split
  · exact hs
  · exact hs.fire _

theorem unbindPair (k : TileKind) (p : WallNo × TileNo) : TallyLawOf P (s.unbindPair k p) := by
  cases k with
  | dest d => exact hs.setEntry rfl rfl
  | invalid => exact hs
  | fixed x => exact hs

theorem bindPair (k : TileKind) (p : WallNo × TileNo) : TallyLawOf P (s.bindPair k p) := by
  cases k with
  | dest d => exact hs.setEntry rfl rfl
  | invalid => exact hs
  | fixed x => exact hs

theorem serveTileSet (o : Order) : TallyLawOf P (Machine.serveTileSet o s).state := by
  unfold Machine.serveTileSet
  split
  · next w i k _ _ _ =>
    split
    · exact hs
    · have hbound : TallyLawOf P (if (s.tile w i).kind = k then s
          else (s.unbindPair (s.tile w i).kind (w, i)).bindPair k (w, i)) := by
        split
        · exact hs
        · exact (hs.unbindPair _ _).bindPair _ _
      exact (hbound.of_same (setWall_same _ w _) rfl).of_same (queueTile_same _ _) rfl
  · exact hs

/-- A channel is bound only while it is IDLE (R139). -/
theorem serveRecBind (o : Order) : TallyLawOf P (Machine.serveRecBind o s).state := by
  unfold Machine.serveRecBind
  split
  · next c d _ _ =>
    split
    · exact hs
    · next hidle =>
      have hst : (s.chan c).state = .idle := by simpa using hidle
      exact hs.setChan_of_ne (by simp [hst]) (by simp [hst])
  · exact hs

theorem serveRecStart (o : Order) : TallyLawOf P (Machine.serveRecStart o s).state := by
  unfold Machine.serveRecStart
  split
  · exact hs
  · next c _ =>
    have hstarted := hs.recStart c .order
    split <;> rename_i heq <;> rw [heq] at hstarted <;> exact hstarted

theorem serveRecStop (o : Order) : TallyLawOf P (Machine.serveRecStop o s).state := by
  unfold Machine.serveRecStop
  split
  · exact hs
  · exact hs.recStop _ _

theorem serveRecMarks (o : Order) : TallyLawOf P (Machine.serveRecMarks o s).state := by
  unfold Machine.serveRecMarks
  split
  · exact hs
  · exact hs.setChan rfl rfl

theorem resetBlock (b : Block) : TallyLawOf P (s.resetBlock b) := by
  cases b with
  | link => exact hs.resetLink
  | salvos =>
    refine hs.of_due rfl (due_of_fields (fun d => ?_) fun _ => ⟨rfl, rfl⟩)
    have hentry : (s.resetBlock .salvos).entry d = (s.entry d).untagged := mapEntries_entry s _ d
    rw [hentry]
    exact ⟨rfl, rfl⟩
  | walls w =>
    refine hs.of_entries (resetWalls_same s w) fun d => ?_
    rw [State.resetBlock, resetWalls_eq, foldl_resetWall_entry]
    exact ⟨rfl, rfl⟩
  | recorders => exact hs.resetRecorders
  | panels => exact hs.of_due rfl rfl

theorem serveBlockReset (o : Order) : TallyLawOf P (Machine.serveBlockReset o s).state := by
  unfold Machine.serveBlockReset
  split
  · exact hs
  · exact hs.resetBlock _

/-! ### Events and served orders -/

theorem event {f : State → State} (hf : ∀ {u : State}, TallyLawOf P u → TallyLawOf P (f u)) (τ : Nat) :
    TallyLawOf P (s.event τ f) := by
  unfold State.event
  split
  · exact hs
  · exact (hf (hs.clock τ)).flushHigh

theorem wholeMessage {f : State → State} (hf : ∀ {u : State}, TallyLawOf P u → TallyLawOf P (f u))
    (τ : Nat) : TallyLawOf P (s.wholeMessage τ f) := by
  unfold State.wholeMessage
  split
  · exact hs.event (fun hu => hf hu.endMatrixGap) τ
  · exact hs

theorem expireBefore (τ : Nat) (g : Group) (order : FollowerOrder) :
    TallyLawOf P (s.expireBefore τ g order) := by
  unfold State.expireBefore
  dsimp only
  split
  · exact hs.event (fun hu => hu.expireTolerance g order) _
  · exact hs

theorem serveIf {act : Order → State → Answer}
    (ha : ∀ {u : State} o, TallyLawOf P u → TallyLawOf P (act o u).state) (τ : Nat) (mine : Order → Bool) :
    TallyLawOf P (s.serveIf τ mine act) := by
  unfold State.serveIf
  split
  · split
    · exact hs
    · next o _ _ =>
      split
      · have hdesk := (hs.clock τ).of_same (beginServing_same _ o) rfl
        exact (ha o hdesk).flushHigh.of_same (withControl_same _ _) rfl
      · exact hs
  · exact hs

theorem serve {act : Order → State → Answer}
    (ha : ∀ {u : State} o, TallyLawOf P u → TallyLawOf P (act o u).state) (τ : Nat) (code : Byte) :
    TallyLawOf P (s.serve τ code act) :=
  hs.serveIf (fun o hu => ifFormed_keeps ha o hu) τ _

/-- An order is served that writes neither the map nor the tally unit nor the recorders. -/
theorem serve_of_same {ps : List Part} {act : Order → State → Answer}
    (ha : ∀ o u, SameBut ps u (act o u).state) (hp : ps.all Part.uncounted = true) (τ : Nat) (code : Byte) :
    TallyLawOf P (s.serve τ code act) :=
  hs.serve (fun o hu => hu.of_same (ha o _) hp) τ code

theorem serveBlock (τ : Nat) (these : Block → Bool) : TallyLawOf P (s.serveBlock τ these) :=
  hs.serveIf (fun o hu => ifFormed_keeps (fun o hu => hu.serveBlockReset o) o hu) τ _

/-! ### The resets of the part -/

theorem releaseReset : TallyLawOf P s.releaseReset := by
  have hbegun : TallyLawOf P { s with now := 0, pins := { s.pins with reset := false } } :=
    hs.of_due rfl rfl
  have hread : TallyLawOf P
      (State.readCarrier { s with now := 0, pins := { s.pins with reset := false } }) := by
    unfold State.readCarrier
    split
    · exact hbegun.startSurvey
    · exact hbegun
  refine foldl_keeps (fun i hu => ?_) _ (foldl_keeps (fun c hu => hu.issueHalt c) _ hread)
  unfold State.readRaw
  split
  · exact hu.startInterval i
  · exact hu

omit hs in
theorem assertReset (s : State) : TallyLawOf P s.assertReset :=
  (((tallyLawOf_iff _).2 reset_tallyLaw).mono fun _ h => h.elim).of_due rfl rfl

omit hs in
theorem deviceReset (s : State) : TallyLawOf P s.deviceReset := (assertReset _).releaseReset

/-! ### Every command -/

section
variable {t : State}

/-- A command that writes neither the map nor the tally unit nor the recorders. -/
theorem exec_of_footprint {c : Instr} (ht : exec c s = .next t)
    (hp : (footprint c).all Part.uncounted = true) : TallyLawOf P t := by
  obtain ⟨u, hu, hsame⟩ := exec_same c s
  exact next_keeps (hu.symm.trans ht) (hs.of_same hsame hp)

theorem execControlTxComplete {τ : Nat} (ht : Machine.execControlTxComplete τ s = .next t) :
    TallyLawOf P t := by
  unfold Machine.execControlTxComplete at ht
  split at ht
  · exact next_keeps ht hs
  · split at ht
    · exact next_keeps ht (hs.of_same (begin_same s) rfl)
    · split at ht
      · exact next_keeps ht (deviceReset s)
      · exact next_keeps ht ((hs.clock τ).of_same (begin_same _) rfl)

theorem execOverdueEntry {d : Dest} (ht : Machine.execOverdueEntry d s = .next t) : TallyLawOf P t := by
  unfold Machine.execOverdueEntry at ht
  split at ht
  · exact next_keeps ht hs
  · split at ht
    · exact next_keeps ht (hs.event (fun hu => hu.setPending d _) _)
    · exact next_keeps ht hs

theorem execTakeTimedOut {d : Dest} (ht : Machine.execTakeTimedOut d s = .next t) : TallyLawOf P t := by
  unfold Machine.execTakeTimedOut at ht
  split at ht
  · exact next_keeps ht hs
  · split at ht
    · exact next_keeps ht (hs.event (fun hu => (hu.timeOut d).dispatchDue [d]) _)
    · exact next_keeps ht hs

theorem execCarrierGain {τ : Nat} (ht : Machine.execCarrierGain τ s = .next t) : TallyLawOf P t := by
  unfold Machine.execCarrierGain at ht
  split at ht
  · exact next_keeps ht hs
  · refine next_keeps ht (event (hs.of_same (withPins_same s _) rfl) (fun hu => ?_) τ)
    split
    · exact hu.startSurvey
    · exact hu

theorem execCarrierLoss {τ : Nat} (ht : Machine.execCarrierLoss τ s = .next t) : TallyLawOf P t := by
  unfold Machine.execCarrierLoss at ht
  split at ht
  · have hlost := (hs.of_same (withPins_same s { s.pins with carrier := false }) rfl).withLink
      { s.link with line := none }
    exact next_keeps ht (hlost.event (fun hu => (hu.withLink _).linkDown .carrierLost) τ)
  · exact next_keeps ht hs

/-- The channel whose cue ends is in CUEING in its event too. -/
theorem execCueEnd {c : ChannelNo} (ht : Machine.execCueEnd c s = .next t) : TallyLawOf P t := by
  unfold Machine.execCueEnd at ht
  split at ht
  · next h =>
    have hst : (s.chan c).state ≠ .recording := by
      obtain ⟨hcueing, -⟩ := Bool.and_eq_true_iff.1 h
      simp [beq_iff_eq.1 hcueing]
    refine next_keeps ht ?_
    unfold State.event
    split
    · exact hs
    · exact ((hs.clock s.now).enterRecording hst _).flushHigh
  · exact next_keeps ht hs

theorem execRecorderTxComplete {τ : Nat} (ht : Machine.execRecorderTxComplete τ s = .next t) :
    TallyLawOf P t := by
  unfold Machine.execRecorderTxComplete at ht
  split at ht
  · exact next_keeps ht hs
  · have hclock : TallyLawOf P (if s.pins.reset then s else s.clock τ) := by
      split
      · exact hs
      · exact hs.clock τ
    exact next_keeps ht (hclock.withRecorder (Recorder.begin_keeps _).1)

/-- Every command keeps the law. -/
theorem exec {c : Instr} (ht : Machine.exec c s = .next t) : TallyLawOf P t := by
  cases c with
  | resetPinAssert =>
    change execResetPinAssert s = _ at ht
    unfold execResetPinAssert at ht
    split at ht
    · exact next_keeps ht hs
    · exact next_keeps ht (assertReset s)
  | resetPinRelease =>
    change execResetPinRelease s = _ at ht
    unfold execResetPinRelease at ht
    split at ht
    · exact next_keeps ht hs.releaseReset
    · exact next_keeps ht hs
  | controlFrameReceived τ bytes =>
    exact next_keeps ht (hs.event (fun hu => hu.of_same (controlBytes_same _ bytes) rfl) τ)
  | controlFrameGapTimeout =>
    change execControlFrameGapTimeout s = _ at ht
    unfold execControlFrameGapTimeout at ht
    split at ht
    · exact next_keeps ht hs
    · exact next_keeps ht (hs.event (fun hu => hu.of_same (controlGap_same _) rfl) _)
  | unknownOrder τ =>
    exact next_keeps ht (hs.serveIf (fun o hu => hu.of_same (serveUnknown_same o _) rfl) τ _)
  | take τ => exact next_keeps ht (hs.serve (fun o hu => hu.serveTake o) τ _)
  | destSet τ => exact next_keeps ht (hs.serve (fun o hu => hu.serveDestSet o) τ _)
  | lock τ => exact next_keeps ht (hs.serve (fun o hu => hu.serveLock o) τ _)
  | unlock τ => exact next_keeps ht (hs.serve (fun o hu => hu.serveUnlock o) τ _)
  | protect τ => exact next_keeps ht (hs.serve (fun o hu => hu.serveProtect o) τ _)
  | query τ => exact next_keeps ht (hs.serve_of_same serveQuery_same rfl τ _)
  | seek τ => exact next_keeps ht (hs.serve_of_same serveSeek_same rfl τ _)
  | panelSet τ => exact next_keeps ht (hs.serve_of_same servePanelSet_same rfl τ _)
  | panelRead τ => exact next_keeps ht (hs.serve_of_same servePanelRead_same rfl τ _)
  | refSet τ order => exact next_keeps ht (hs.serve (fun o hu => hu.serveRefSet order o) τ _)
  | refRead τ => exact next_keeps ht (hs.serve_of_same serveRefRead_same rfl τ _)
  | refEdge τ g order =>
    exact next_keeps ht ((hs.expireBefore τ g order).event (fun hu => hu.edge g order) τ)
  | toleranceExpiry g order =>
    change execToleranceExpiry g order s = _ at ht
    unfold execToleranceExpiry at ht
    split at ht
    · exact next_keeps ht (hs.event (fun hu => hu.expireTolerance g order) _)
    · exact next_keeps ht hs
  | freewheelBoundary g order =>
    change execFreewheelBoundary g order s = _ at ht
    unfold execFreewheelBoundary at ht
    split at ht
    · exact next_keeps ht (hs.event (fun hu => hu.freewheel g order) _)
    · exact next_keeps ht hs
  | overdueEntry d => exact hs.execOverdueEntry ht
  | takeTimedOut d => exact hs.execTakeTimedOut ht
  | takeFallsDue τ => exact next_keeps ht (hs.event (fun hu => hu.dispatchDue _) τ)
  | leadSet τ => exact next_keeps ht (hs.serve_of_same serveLeadSet_same rfl τ _)
  | leadRead τ => exact next_keeps ht (hs.serve_of_same serveLeadRead_same rfl τ _)
  | carrierGain τ => exact hs.execCarrierGain ht
  | carrierLoss τ => exact hs.execCarrierLoss ht
  | routeReport τ dest source token held survey =>
    exact next_keeps ht (hs.wholeMessage (fun hu => hu.report _) τ)
  | surveyEnd τ dests sources => exact next_keeps ht (hs.wholeMessage (fun hu => hu.endSurvey _ _) τ)
  | matrixBadFrame τ bytes => exact next_keeps ht (hs.event (fun hu => hu.matrixBytes bytes) τ)
  | matrixFrameGapTimeout =>
    change execMatrixFrameGapTimeout s = _ at ht
    unfold execMatrixFrameGapTimeout at ht
    split at ht
    · exact next_keeps ht hs
    · exact next_keeps ht (hs.event (fun hu => hu.of_same (matrixGap_same _) rfl) _)
  | matrixTxComplete τ => exact hs.exec_of_footprint ht rfl
  | salvoOpen τ => exact next_keeps ht (hs.serve_of_same serveSalvoOpen_same rfl τ _)
  | salvoPut τ => exact next_keeps ht (hs.serve_of_same serveSalvoPut_same rfl τ _)
  | salvoDrop τ => exact next_keeps ht (hs.serve_of_same serveSalvoDrop_same rfl τ _)
  | salvoArm τ => exact next_keeps ht (hs.serve_of_same serveSalvoArm_same rfl τ _)
  | salvoClear τ => exact next_keeps ht (hs.serve_of_same serveSalvoClear_same rfl τ _)
  | salvoFire τ => exact next_keeps ht (hs.serve (fun o hu => hu.serveSalvoFire o) τ _)
  | salvoRead τ => exact next_keeps ht (hs.serve_of_same serveSalvoRead_same rfl τ _)
  | trigSet τ => exact next_keeps ht (hs.serve_of_same serveTrigSet_same rfl τ _)
  | trigRead τ => exact next_keeps ht (hs.serve_of_same serveTrigRead_same rfl τ _)
  | triggerRawChange τ i b =>
    change execTriggerRawChange τ i b s = _ at ht
    unfold execTriggerRawChange at ht
    split at ht
    · exact next_keeps ht hs
    · split at ht
      · exact next_keeps ht (hs.setTrig i _)
      · exact next_keeps ht (hs.event (fun hu => hu.rawChange i b) τ)
  | qualifiedEdge i =>
    change execQualifiedEdge i s = _ at ht
    unfold execQualifiedEdge at ht
    split at ht
    · exact next_keeps ht hs
    · exact next_keeps ht (hs.event (fun hu => hu.qualify i) _)
  | tallyRead τ => exact next_keeps ht (hs.serve_of_same serveTallyRead_same rfl τ _)
  | nameSet τ => exact next_keeps ht (hs.serve_of_same serveNameSet_same rfl τ _)
  | tileSet τ => exact next_keeps ht (hs.serve (fun o hu => hu.serveTileSet o) τ _)
  | wallFreeze τ => exact next_keeps ht (hs.serve_of_same serveWallFreeze_same rfl τ _)
  | wallThaw τ => exact next_keeps ht (hs.serve_of_same serveWallThaw_same rfl τ _)
  | wallSet τ => exact next_keeps ht (hs.serve_of_same serveWallSet_same rfl τ _)
  | wallRead τ => exact next_keeps ht (hs.serve_of_same serveWallRead_same rfl τ _)
  | wallRecordTxComplete τ w => exact hs.exec_of_footprint ht rfl
  | recBind τ => exact next_keeps ht (hs.serve (fun o hu => hu.serveRecBind o) τ _)
  | recStart τ => exact next_keeps ht (hs.serve (fun o hu => hu.serveRecStart o) τ _)
  | recStop τ => exact next_keeps ht (hs.serve (fun o hu => hu.serveRecStop o) τ _)
  | cueEnd c => exact hs.execCueEnd ht
  | recMarks τ => exact next_keeps ht (hs.serve (fun o hu => hu.serveRecMarks o) τ _)
  | recRead τ => exact next_keeps ht (hs.serve_of_same serveRecRead_same rfl τ _)
  | recorderTxComplete τ => exact hs.execRecorderTxComplete ht
  | noticeSet τ => exact next_keeps ht (hs.serve_of_same serveNoticeSet_same rfl τ _)
  | status τ => exact next_keeps ht (hs.serve_of_same serveStatus_same rfl τ _)
  | controlTxComplete τ => exact hs.execControlTxComplete ht
  | blockResetLink τ => exact next_keeps ht (hs.serveBlock τ _)
  | blockResetSalvos τ => exact next_keeps ht (hs.serveBlock τ _)
  | blockResetWalls τ => exact next_keeps ht (hs.serveBlock τ _)
  | blockResetRecorders τ => exact next_keeps ht (hs.serveBlock τ _)
  | blockResetPanels τ => exact next_keeps ht (hs.serveBlock τ _)
  | deviceReset τ => exact next_keeps ht (hs.serve_of_same serveDeviceReset_same rfl τ _)
  | deviceResetTakesEffect =>
    change execDeviceResetTakesEffect s = _ at ht
    unfold execDeviceResetTakesEffect at ht
    split at ht
    · exact next_keeps ht (deviceReset s)
    · exact next_keeps ht hs

end

end TallyLawOf

/-- Settles O56: what a destination or a channel adds to a count passes from source to source with the
counts, and each source whose counts have moved is compared before the event ends. -/
theorem everyStepKeepsTheTallyLaw : Obligations.EveryStepKeepsTheTallyLaw := by
  unfold Obligations.EveryStepKeepsTheTallyLaw
  intro s t hs ht
  rw [← tallyLawOf_iff] at hs ⊢
  unfold step at ht
  split at ht
  · exact next_keeps ht hs
  · next c cs _ =>
    have hpopped : TallyLawOf (fun _ => False) { s with pending := cs } := hs.of_due rfl rfl
    exact hpopped.exec ht

end Sys2Proof.Machine
end

section
/-! O28: the drain of the walls at a boundary (R127 to R129). -/

namespace Sys2Proof.Machine

/-! ### The record of a tile (R120, R129) -/

theorem valid_eq_decide (k : TileKind) : k.valid = decide (k ≠ .invalid) := by
  cases k <;> rfl

/-- A tile yields an UPDATE, or a BLANK when it is INVALID (R127). -/
theorem record_eq (s : State) (w : WallNo) (i : TileNo) (f : FrameNo) : s.record w i f =
    { update := decide ((s.tile w i).kind ≠ .invalid), wall := w, tile := i,
      contents := s.contents (s.tile w i).kind, frame := f } := by
  simp only [State.record, valid_eq_decide]

section
variable {s u : State}

/-- What a tile shows is read from the map, the tally and the names. -/
theorem contents_of_same (h : SameBut [.walls] s u) (k : TileKind) : u.contents k = s.contents k := by
  have hshown : u.shown k = s.shown k := by
    cases k with
    | dest d => exact congrArg Entry.source (entry_of_same h (c := d))
    | invalid => rfl
    | fixed x => rfl
  have hnames : u.names = s.names := h .names (by decide)
  have htally : u.tally = s.tally := h .tally (by decide)
  simp only [State.contents, hshown, State.shownName, State.shownColour, State.nameOf, State.tallyOf,
    hnames, htally, entry_of_same h]

theorem record_of_same (h : SameBut [.walls] s u) {w : WallNo} (hw : u.wall w = s.wall w) (i : TileNo)
    (f : FrameNo) : u.record w i f = s.record w i f := by
  simp only [State.record, State.tile, hw, contents_of_same h]

end

/-! ### One wall is drained -/

/-- The sending of tiles writes descriptors only. -/
theorem Wall.foldl_sent_eq (l : List TileNo) (r : Wall) :
    l.foldl Wall.sent r = { r with tiles := (l.foldl Wall.sent r).tiles } := by
  induction l generalizing r with
  | nil => rfl
  | cons i l ih =>
    have hsent : r.sent i = { r with tiles := (r.sent i).tiles } := by
      unfold Wall.sent
      dsimp only
      split <;> rfl
    rw [List.foldl_cons, ih (r.sent i), hsent]

/-- Sending leaves a valid tile as it is. -/
theorem Tile.sent_eq (d : Tile) : d.sent = if d.kind = .invalid then ⟨.invalid, false⟩ else d := by
  obtain ⟨k, b⟩ := d
  cases k <;> rfl

/-- The wall that a drain leaves: its budget of tiles is taken, and their records are on the line. -/
def State.drained (s : State) (f : FrameNo) (w : WallNo) : Wall :=
  let r := s.wall w
  let taken := r.queue.take r.budget
  taken.foldl Wall.sent
    { r with queue := r.queue.drop r.budget, line := taken.map fun i => s.record w i f }

/-- A drain writes the queue, the line and descriptors; the records are those of R129. -/
theorem drained_eq (s : State) (f : FrameNo) (w : WallNo) : s.drained f w = { s.wall w with
    queue := (s.wall w).queue.drop (s.wall w).budget
    line := ((s.wall w).queue.take (s.wall w).budget).map fun i =>
      { update := decide ((s.tile w i).kind ≠ .invalid), wall := w, tile := i,
        contents := s.contents (s.tile w i).kind, frame := f }
    tiles := (s.drained f w).tiles } := by
  simp only [← record_eq]
  exact Wall.foldl_sent_eq _ _

/-- A BLANK clears the blank pending flag of its tile. -/
theorem drained_tileAt (s : State) (f : FrameNo) (w : WallNo) (i : TileNo) :
    (s.drained f w).tileAt i
      = if i ∈ (s.wall w).queue.take (s.wall w).budget ∧ (s.tile w i).kind = .invalid
        then ⟨.invalid, false⟩ else s.tile w i := by
  refine (Wall.tileAt_foldl_sent _ _ i).trans ?_
  simp only [Tile.sent_eq, ite_and]
  rfl

section
variable {s u : State} {f : FrameNo} {w : WallNo}

theorem drainWall_of_held (h : (s.wall w).frozen = true ∨ (s.wall w).line ≠ []) :
    s.drainWall f w = s :=
  if_pos (by simpa using h)

theorem drainWall_of_free (hf : (s.wall w).frozen = false) (hl : (s.wall w).line = []) :
    s.drainWall f w = s.setWall w (s.drained f w) :=
  if_neg (by simp [hf, hl])

theorem drainWall_wall_of_ne {v : WallNo} (hv : v ≠ w) : (s.drainWall f w).wall v = s.wall v := by
  unfold State.drainWall
  dsimp only
  split
  · rfl
  · exact s.setWall_wall_of_ne w _ hv

/-- What the drain makes of a wall does not depend on the other walls. -/
theorem drainWall_wall_of_same (h : SameBut [.walls] s u) (hw : u.wall w = s.wall w) :
    (u.drainWall f w).wall w = (s.drainWall f w).wall w := by
  by_cases hheld : (s.wall w).frozen = true ∨ (s.wall w).line ≠ []
  · rw [drainWall_of_held hheld, drainWall_of_held (hw ▸ hheld), hw]
  · obtain ⟨hf, hl⟩ : (s.wall w).frozen = false ∧ (s.wall w).line = [] := by simpa using hheld
    rw [drainWall_of_free hf hl, drainWall_of_free (hw ▸ hf) (hw ▸ hl), State.setWall_wall_self,
      State.setWall_wall_self]
    simp only [State.drained, hw, record_of_same h hw]

end

/-! ### The boundary -/

/-- At a boundary each wall of the group is drained as if it were the only one. -/
theorem wallsAtBoundary_wall (s : State) (g : Group) (f : FrameNo) (w : WallNo) :
    (s.wallsAtBoundary g f).wall w
      = if (s.wall w).group = g then (s.drainWall f w).wall w else s.wall w := by
  have hmem : w ∈ select (fun r : Wall => r.group == g) s.walls ↔ (s.wall w).group = g :=
    (mem_select _ _ w).trans beq_iff_eq
  unfold State.wallsAtBoundary
  split
  · next hg =>
    exact foldl_own (I := fun _ => True) (get := State.wall) (new := fun u v => (u.drainWall f v).wall v)
      (fun _ _ => trivial) (fun _ _ _ => rfl) (fun _ _ _ hv => drainWall_wall_of_ne hv)
      (fun u v _ _ hv => drainWall_wall_of_same (drainWall_same u f v) (drainWall_wall_of_ne hv))
      (select_nodup _ _) trivial (hmem.2 hg)
  · next hg =>
    exact foldl_untouched State.wall (fun u v => u.drainWall f v)
      (fun _ _ _ hv => drainWall_wall_of_ne hv) _ s w fun hw => hg (hmem.1 hw)

/-- Settles O28: a wall that is held or follows another group is as it was; the others are drained. -/
theorem boundaryDrainsTheWallsOfItsGroup : Obligations.BoundaryDrainsTheWallsOfItsGroup := by
  unfold Obligations.BoundaryDrainsTheWallsOfItsGroup
  refine fun s g f => ⟨wallsAtBoundary_same s g f, fun w => ?_⟩
  intro r r1
  have hr1 : r1 = if r.group = g then (s.drainWall f w).wall w else r := wallsAtBoundary_wall s g f w
  refine ⟨fun hheld => ?untouched, fun hg hf hl => ?drained⟩
  case untouched =>
    rw [hr1]
    split
    · next hg => rw [drainWall_of_held (hheld.resolve_left (not_not.2 hg))]
    · rfl
  case drained =>
    rw [if_pos hg, drainWall_of_free hf hl, State.setWall_wall_self] at hr1
    have hd := drained_eq s f w
    rw [← hr1] at hd
    refine ⟨(congrArg Wall.group hd :), (congrArg Wall.budget hd :),
      (congrArg Wall.frozen hd :).trans hf, (congrArg Wall.queue hd :), (congrArg Wall.line hd :),
      fun i => ?_⟩
    change r1.tileAt i = _
    rw [hr1]
    exact drained_tileAt s f w i

end Sys2Proof.Machine
end

section
/-! O48: WALL_FREEZE, WALL_THAW and WALL_SET (R130 to R132). -/

namespace Sys2Proof.Machine

theorem State.setWall_setWall (s : State) (w : WallNo) (r r1 : Wall) :
    (s.setWall w r).setWall w r1 = s.setWall w r1 := by
  simp [State.setWall]

theorem State.setWall_self (s : State) (w : WallNo) : s.setWall w (s.wall w) = s := by
  simp [State.setWall, State.wall]

/-- Tiles of one wall are queued: that wall's record is all that is written. -/
theorem queueTiles_one_wall (s : State) (w : WallNo) (l : List TileNo) :
    s.queueTiles (l.map fun i => (w, i)) = s.setWall w (l.foldl Wall.enqueue (s.wall w)) := by
  induction l generalizing s with
  | nil => exact (s.setWall_self w).symm
  | cons i l ih =>
    refine (ih (s.queueTile (w, i))).trans ?_
    rw [State.queueTile, State.setWall_setWall, State.setWall_wall_self, List.foldl_cons]

theorem validTiles_eq (s : State) (w : WallNo) :
    s.validTiles w = (List.finRange 64).filter fun i => (s.tile w i).kind ≠ .invalid := by
  refine (select_eq_filter _ _).trans (List.filter_congr fun i _ => ?_)
  exact valid_eq_decide (s.tile w i).kind

/-- What a thaw leaves of a wall: the valid tiles stand in the queue, behind those that stood there. -/
def State.thawed (s : State) (w : WallNo) : Wall :=
  let r := s.wall w
  { r with
    frozen := false
    queue := r.queue ++ (List.finRange 64).filter fun i =>
      (s.tile w i).kind ≠ .invalid ∧ i ∉ r.queue }

theorem thaw_eq (s : State) (w : WallNo) :
    (s.setWall w { s.wall w with frozen := false }).queueTiles
        (((s.setWall w { s.wall w with frozen := false }).validTiles w).map fun i => (w, i))
      = s.setWall w (s.thawed w) := by
  have hvalid : (s.setWall w { s.wall w with frozen := false }).validTiles w = s.validTiles w := by
    simp only [State.validTiles, State.setWall_wall_self]
  rw [hvalid, queueTiles_one_wall, State.setWall_setWall, State.setWall_wall_self,
    validTiles_eq, foldl_enqueue _ _ ((List.nodup_finRange 64).filter _), List.filter_filter]
  simp only [State.thawed, Bool.decide_and, Bool.and_comm]

section
variable {τ : Nat} {s : State} {o : Order} {w : WallNo}

/-- An order that writes one wall. -/
theorem serve_setWall {code : Byte} (h : Serving s o code) (τ : Nat) {act : Order → State → Answer}
    {r : Wall} {v : Verdict} {p : List Byte}
    (ha : act o (s.atDesk τ o) = ⟨(s.atDesk τ o).setWall w r, v, p⟩) :
    s.serve τ code act = { s.answered τ o v p with walls := (s.setWall w r).walls } :=
  serve_answer h τ ha h.owed

theorem serveWallFreeze_atDesk (hw : read8 o.payload 0 = w) :
    serveWallFreeze o (s.atDesk τ o) = ⟨(s.atDesk τ o).setWall w { s.wall w with frozen := true },
      .done, be8 (s.wall w).queue.length⟩ := by
  simp only [serveWallFreeze, hw, wall?_val]
  rfl

theorem serveWallThaw_atDesk (hw : read8 o.payload 0 = w) :
    serveWallThaw o (s.atDesk τ o) = ⟨(s.atDesk τ o).setWall w (s.thawed w), .done,
      be8 (s.thawed w).queue.length⟩ := by
  simp only [serveWallThaw, hw, wall?_val, thaw_eq, State.setWall_wall_self]
  rfl

theorem serveWallSet_atDesk {g : Group} (hw : read8 o.payload 0 = w)
    (hg : read8 o.payload 1 = groupCode g) :
    serveWallSet o (s.atDesk τ o) =
      ⟨(s.atDesk τ o).setWall w { s.wall w with group := g, budget := clamp 1 16 (read8 o.payload 2) },
        .done, be8 (groupCode g) ++ be8 (clamp 1 16 (read8 o.payload 2))⟩ := by
  simp only [serveWallSet, hw, hg, wall?_val, group?_code]
  rfl

end

/-- Settles O48: each order writes the record of its wall, and nothing else but the interface. -/
theorem wallOrdersFreezeThawAndSet : Obligations.WallOrdersFreezeThawAndSet := by
  unfold Obligations.WallOrdersFreezeThawAndSet
  intro τ s o w hw r done
  refine ⟨fun h => ?freeze, fun h => ?thaw, fun g h hg => ?set⟩
  case freeze => exact congrArg Host.Outcome.next (serve_setWall h τ (serveWallFreeze_atDesk hw))
  case thaw => exact congrArg Host.Outcome.next (serve_setWall h τ (serveWallThaw_atDesk hw))
  case set => exact congrArg Host.Outcome.next (serve_setWall h τ (serveWallSet_atDesk hw hg))

end Sys2Proof.Machine
end

section
/-! O47: NAME_SET (R121) and TILE_SET (R122, R123). -/

namespace Sys2Proof.Machine

/-! ### NAME_SET -/

/-- The eight characters of an order's name, as they are stored (R121). -/
def orderedName (o : Order) : Vector Byte 8 :=
  Vector.ofFn fun j : Fin 8 => nameChar (byteAt o.payload (2 + j.1))

theorem nameOf_of_same {ps : List Part} {s t : State} (h : SameBut ps s t)
    (hp : Part.names ∉ ps := by decide) (y : Source) : t.nameOf y = s.nameOf y := by
  have hn : t.names = s.names := h .names hp
  simp only [State.nameOf, hn]

/-- A name is stored, and the tiles that show the source are queued. -/
def State.named (s : State) (x : Source) (v : Vector Byte 8) : State := (s.setName x v).announceSource x

theorem named_same (s : State) (x : Source) (v : Vector Byte 8) :
    SameBut [.names, .walls] s (s.named x v) :=
  (setName_same s x v).comp (announceSource_same _ x) (by decide) (by decide)

theorem named_nameOf (s : State) (x : Source) (v : Vector Byte 8) (y : Source) :
    (s.named x v).nameOf y = if y = x then v else s.nameOf y :=
  (nameOf_of_same (announceSource_same (s.setName x v) x) (by decide) y).trans (s.setName_nameOf x v y)

theorem named_queued (s : State) (x : Source) (v : Vector Byte 8) :
    Queued s (s.named x v) ((List.finRange 8).flatMap fun w => (s.showing w x).map fun i => (w, i)) :=
  queueTiles_queued (s.setName x v) (showing_nodup s x)

theorem serveNameSet_atDesk {τ : Nat} {s : State} {o : Order} {x : Source}
    (hx : read16 o.payload 0 = x) :
    serveNameSet o (s.atDesk τ o)
      = ⟨(s.atDesk τ o).named x (orderedName o), .done, (orderedName o).toList⟩ := by
  simp only [serveNameSet, hx, source?_val]
  rfl

/-! ### A tile is bound (R122, R123) -/

/-- Of the map, only the tile lists of the entries differ between two states. -/
structure OnlyTileLists (s t : State) : Prop where
  dests   : t.map.dests = s.map.dests
  sources : t.map.sources = s.map.sources
  entry   : ∀ d, t.entry d = { s.entry d with tiles := (t.entry d).tiles }

namespace OnlyTileLists

theorem of_same {ps : List Part} {s t : State} (h : SameBut ps s t) (hp : Part.map ∉ ps := by decide) :
    OnlyTileLists s t := by
  have hm : t.map = s.map := h .map hp
  exact ⟨by rw [hm], by rw [hm], fun d => by rw [entry_of_same h hp]⟩

theorem trans {s t u : State} (h : OnlyTileLists s t) (k : OnlyTileLists t u) : OnlyTileLists s u :=
  ⟨k.dests.trans h.dests, k.sources.trans h.sources, fun d => by rw [k.entry d, h.entry d]⟩

theorem setEntry (s : State) (d : Dest) (l : List (WallNo × TileNo)) :
    OnlyTileLists s (s.setEntry d { s.entry d with tiles := l }) := by
  refine ⟨rfl, rfl, fun c => ?_⟩
  rw [State.setEntry_entry]
  split
  · next hc => rw [hc]
  · rfl

theorem unbindPair (s : State) (k : TileKind) (p : WallNo × TileNo) :
    OnlyTileLists s (s.unbindPair k p) := by
  cases k with
  | dest d => exact setEntry s d _
  | invalid => exact of_same (.refl [] s)
  | fixed x => exact of_same (.refl [] s)

theorem bindPair (s : State) (k : TileKind) (p : WallNo × TileNo) :
    OnlyTileLists s (s.bindPair k p) := by
  cases k with
  | dest d => exact setEntry s d _
  | invalid => exact of_same (.refl [] s)
  | fixed x => exact of_same (.refl [] s)

theorem writeTile (s : State) (w : WallNo) (i : TileNo) (k : TileKind) :
    OnlyTileLists s (s.writeTile w i k) := by
  unfold State.writeTile
  dsimp only
  split
  · exact of_same (setWall_same s w _)
  · exact ((unbindPair s _ _).trans (bindPair _ k _)).trans (of_same (setWall_same _ w _))

end OnlyTileLists

theorem not_valid_eq_decide (k : TileKind) : (!k.valid) = decide (k = .invalid) := by
  cases k <;> rfl

theorem Wall.enqueue_eq (r : Wall) (i : TileNo) : r.enqueue i =
    { r with queue := if i ∈ r.queue then r.queue else r.queue ++ [i] } := by
  unfold Wall.enqueue
  split <;> rfl

theorem fanoutFull_iff (s : State) (w : WallNo) (i : TileNo) (k : TileKind) :
    s.fanoutFull w i k = true
      ↔ ∃ d, k = .dest d ∧ (s.tile w i).kind ≠ k ∧ 8 ≤ (s.entry d).tiles.length := by
  cases k with
  | dest d => simp [State.fanoutFull, show Config.fanoutRoom = 8 from rfl]
  | invalid => simp [State.fanoutFull]
  | fixed x => simp [State.fanoutFull]

/-- A tile is given a kind, and queued. -/
def State.retiled (s : State) (w : WallNo) (i : TileNo) (k : TileKind) : State :=
  (s.writeTile w i k).queueTile (w, i)

section
variable (s : State) (w : WallNo) (i : TileNo) (k : TileKind)

theorem retiled_same : SameBut [.map, .walls] s (s.retiled w i k) :=
  (writeTile_same s w i k).trans ((queueTile_same _ _).mono (by decide))

theorem retiled_wall_of_ne {v : WallNo} (hv : v ≠ w) : (s.retiled w i k).wall v = s.wall v := by
  rw [State.retiled, wall_queueTile, if_neg hv, writeTile_wall, if_neg hv]

theorem retiled_wall : (s.retiled w i k).wall w = { s.wall w with
    tiles := (s.wall w).tiles.set i.1 ⟨k, decide (k = .invalid)⟩ i.2
    queue := if i ∈ (s.wall w).queue then (s.wall w).queue else (s.wall w).queue ++ [i] } := by
  rw [State.retiled, wall_queueTile, if_pos rfl, writeTile_wall, if_pos rfl, Wall.enqueue_eq,
    not_valid_eq_decide]
  rfl

theorem retiled_tile : (s.retiled w i k).tile w i = ⟨k, decide (k = .invalid)⟩ := by
  simp [State.tile, retiled_wall]

theorem retiled_onlyTileLists : OnlyTileLists s (s.retiled w i k) :=
  (OnlyTileLists.writeTile s w i k).trans (.of_same (queueTile_same _ _))

end

section
variable {s : State} {w : WallNo} {i : TileNo} {k : TileKind}

/-- The lists are lawful before and after, so the pairs in them are told by the kinds of the tiles. -/
theorem FanoutLaw.mem_retiled (h : FanoutLaw s) (hroom : s.fanoutFull w i k = false) (d : Dest)
    (p : WallNo × TileNo) : p ∈ ((s.retiled w i k).entry d).tiles ↔
      (p ≠ (w, i) ∧ p ∈ (s.entry d).tiles) ∨ (p = (w, i) ∧ k = .dest d) := by
  refine ((h.writeTile hroom).bound d p.1 p.2).trans ?_
  rw [writeTile_kind]
  by_cases hp : p = (w, i)
  · simp [hp]
  · rw [if_neg fun e => hp (Prod.ext e.1 e.2), ← h.bound d]
    simp [hp]

/-! ### TILE_SET -/

variable {τ : Nat} {o : Order}

theorem serveTileSet_atDesk (hw : read8 o.payload 0 = w) (hi : read8 o.payload 1 = i)
    (hk : tileKind? (read8 o.payload 2) (read16 o.payload 3) = some k) :
    serveTileSet o (s.atDesk τ o) = if s.fanoutFull w i k then answer .fanoutFull (s.atDesk τ o) else
      ⟨(s.atDesk τ o).retiled w i k, .done, tileSetPayload w i ⟨k, decide (k = .invalid)⟩⟩ := by
  rw [← retiled_tile (s.atDesk τ o) w i k]
  simp only [serveTileSet, hw, hi, hk, wall?_val, tileNo?_val]
  rfl

end

/-- Settles O47: the name or the descriptor is written, and the tiles that it changes are queued. -/
theorem nameSetAndTileSetQueueTheirTiles : Obligations.NameSetAndTileSetQueueTheirTiles := by
  unfold Obligations.NameSetAndTileSetQueueTheirTiles
  intro τ s o hlaw
  refine ⟨fun x h hx => ?name, fun w i kind h hw hi hkind => ?tile⟩
  case name =>
    obtain ⟨t, ht, hserved, hsame⟩ := serve_served h τ (serveNameSet_atDesk hx) (named_same _ x _)
    have hname (y : Source) : t.nameOf y = if y = x then orderedName o else s.nameOf y :=
      (nameOf_of_same hsame (by decide) y).trans (named_nameOf _ x _ y)
    have hx' : t.nameOf x = orderedName o := (hname x).trans (if_pos rfl)
    refine ⟨t, congrArg _ ht, hx' ▸ hserved, fun j => ?_, fun y hy => (hname y).trans (if_neg hy), ?_⟩
    · simp [hx', orderedName, nameChar]
    · exact (named_queued (s.atDesk τ o) x _).of_walls (fun _ => rfl) (wall_of_same hsame)
  case tile =>
    intro full
    have hk : tileKind? (read8 o.payload 2) (read16 o.payload 3) = some kind := by
      cases kind with
      | invalid => simp only [hkind, tileKind?]
      | dest d => simp only [hkind, tileKind?, dest?_val, Option.map_some]
      | fixed x => simp only [hkind, tileKind?, source?_val, Option.map_some]
    have ha := serveTileSet_atDesk (s := s) (τ := τ) hw hi hk
    have hfull : s.fanoutFull w i kind = true ↔ full := fanoutFull_iff s w i kind
    refine ⟨fun hf => ?_, fun hf => ?_⟩
    · rw [if_pos (hfull.2 hf)] at ha
      exact congrArg Host.Outcome.next (serve_quiet h τ ha)
    · have hroom : s.fanoutFull w i kind = false := Bool.eq_false_iff.2 fun hr => hf (hfull.1 hr)
      rw [hroom] at ha
      obtain ⟨t, ht, hserved, hsame⟩ := serve_served h τ ha (retiled_same _ w i kind)
      have hlists := (retiled_onlyTileLists (s.atDesk τ o) w i kind).trans (.of_same hsame)
      have hdesk : FanoutLaw (s.atDesk τ o) := hlaw.of_lists (fun _ => rfl) fun _ _ => rfl
      refine ⟨t, congrArg _ ht, hserved, fun v hv => ?_, ?_, hlists.dests, hlists.sources,
        fun d => ⟨hlists.entry d, fun p => ?_⟩⟩
      · exact (wall_of_same hsame (w := v)).trans (retiled_wall_of_ne _ w i kind hv)
      · exact (wall_of_same hsame (w := w)).trans (retiled_wall _ w i kind)
      · rw [entry_of_same hsame]
        exact hdesk.mem_retiled hroom d p

end Sys2Proof.Machine
end

section
/-! O49: a command that is issued, and the one that already waits for its channel (R137). -/

namespace Sys2Proof.Machine

theorem queuedFor_none {q : List RecCommand} {c : ChannelNo} (h : ∀ x ∈ q, x.channel ≠ c) :
    queuedFor q c = none := by
  rw [queuedFor, Option.map_eq_none_iff, List.find?_eq_none]
  exact fun x hx => by simp [h x hx]

theorem queuedFor_some {q : List RecCommand} {c : ChannelNo} {old : RecOp}
    (h : (q.find? fun x => x.channel = c) = some ⟨c, old⟩) : queuedFor q c = some old := by
  simp only [queuedFor, beq_eq_decide, h, Option.map_some]

/-- The commands of a channel are replaced by one, where they stand. -/
def Recorder.inPlace (r : Recorder) (c : ChannelNo) (op : RecOp) : Recorder :=
  { r with queue := r.queue.map fun x => if x.channel = c then ⟨c, op⟩ else x }

theorem replaceQueued_eq (q : List RecCommand) (c : ChannelNo) (op : RecOp) :
    replaceQueued q c op = q.map fun x => if x.channel = c then ⟨c, op⟩ else x := by
  refine List.map_congr_left fun x _ => ?_
  by_cases h : x.channel = c
  · rw [if_pos (by simpa using h), if_pos h, ← h]
  · rw [if_neg (by simpa using h), if_neg h]

/-- The beginning of a command loses nothing, and puts nothing out of its order. -/
theorem Recorder.begin_outbound (r : Recorder) : r.begin.outbound = r.outbound := by
  unfold Recorder.begin
  split
  · next hl hq => simp [Recorder.outbound, hl, hq]
  · rfl

section
variable {r : Recorder} {c : ChannelNo} {op old new : RecOp} {g : Group} {f : FrameNo}

theorem Recorder.issue_appends (h : queuedFor r.queue c = none) :
    r.issue c op g f = Recorder.begin { r with queue := r.queue ++ [⟨c, op⟩] } := by
  rw [Recorder.issue, h]

theorem Recorder.issue_removes (h : queuedFor r.queue c = some old) (hm : mergeOp old op g f = none) :
    r.issue c op g f = { r with queue := r.queue.filter (·.channel ≠ c) } := by
  simp only [Recorder.issue, h, hm, bne, beq_eq_decide, decide_not]

theorem Recorder.issue_merges (h : queuedFor r.queue c = some old)
    (hm : mergeOp old op g f = some new) : r.issue c op g f = r.inPlace c new := by
  simp only [Recorder.issue, h, hm, replaceQueued_eq]
  rfl

end

/-- Settles O49: each pairing is a value of `mergeOp`. -/
theorem issuedCommandsAreMerged : Obligations.IssuedCommandsAreMerged := by
  unfold Obligations.IssuedCommandsAreMerged
  intro r c op g f inPlace
  refine ⟨fun hnone => ?append, fun old hold => ?merge⟩
  case append =>
    rw [Recorder.issue_appends (queuedFor_none hnone)]
    refine ⟨?_, (Recorder.begin_keeps _).1, fun hline hqueue => ?_⟩
    · rw [Recorder.begin_outbound]
      exact (List.append_assoc ..).symm
    · simp [Recorder.begin, hline, hqueue]
  case merge =>
    have hq := queuedFor_some hold
    refine ⟨?rollSplit, ?rollHalt, ?splitSplit, ?splitHalt, ?haltRoll, ?unlisted⟩
    case rollSplit => rintro c1 c2 g2 f2 rfl rfl; exact Recorder.issue_merges hq rfl
    case rollHalt => rintro c1 c2 rfl rfl; exact Recorder.issue_removes hq rfl
    case splitSplit => rintro c1 g1 f1 c2 g2 f2 rfl rfl; exact Recorder.issue_merges hq rfl
    case splitHalt => rintro c1 g1 f1 c2 rfl rfl; exact Recorder.issue_merges hq rfl
    case haltRoll => rintro c1 c2 rfl rfl; exact Recorder.issue_merges hq rfl
    case unlisted =>
      rintro (⟨c1, c2, rfl, rfl⟩ | ⟨c1, g1, f1, c2, rfl, rfl⟩ | ⟨c1, c2, g2, f2, rfl, rfl⟩
        | ⟨c1, c2, rfl, rfl⟩) <;> exact Recorder.issue_merges hq rfl

end Sys2Proof.Machine
end

section
/-! O50: REC_BIND (R139) and REC_MARKS (R147). -/

namespace Sys2Proof.Machine

section
variable {τ : Nat} {s : State} {o : Order} {c : ChannelNo}

theorem bindDest?_val (d : Dest) : bindDest? d.1 = some (some d) := by
  rw [bindDest?, if_neg (by omega), dest?_val, Option.map_some]

theorem serveRecBind_atDesk {bound : Option Dest} (hc : read8 o.payload 0 = c)
    (hb : bindDest? (read16 o.payload 1) = some bound) :
    serveRecBind o (s.atDesk τ o) = if (s.chan c).state ≠ .idle then answer .recActive (s.atDesk τ o)
      else ⟨(s.atDesk τ o).setChan c
          { s.chan c with bound := bound, lead := min (read8 o.payload 3) 15 }, .done,
        destField bound ++ be8 (min (read8 o.payload 3) 15)⟩ := by
  simp only [serveRecBind, hc, hb, channel?_val, bne_iff_ne]
  rfl

theorem serveRecMarks_atDesk (hc : read8 o.payload 0 = c) :
    let n := max 1 (min 8 (read8 o.payload 1))
    serveRecMarks o (s.atDesk τ o)
      = ⟨(s.atDesk τ o).setChan c { s.chan c with marks := (s.chan c).marks.drop n, wrapped := false },
        .done, flagByte (s.chan c).wrapped ++ be8 ((s.chan c).marks.drop n).length
          ++ listField markRecord ((s.chan c).marks.take n)⟩ := by
  simp only [serveRecMarks, hc, channel?_val]
  rfl

end

/-- Settles O50. -/
theorem recBindAndRecMarks : Obligations.RecBindAndRecMarks := by
  unfold Obligations.RecBindAndRecMarks
  intro τ s o c hc r done
  refine ⟨?bind, ?marks⟩
  case bind =>
    intro bound h hbound lead
    have hb : bindDest? (read16 o.payload 1) = some bound := by
      cases bound with
      | none => exact congrArg bindDest? hbound
      | some d => exact (congrArg bindDest? hbound).trans (bindDest?_val d)
    have ha := serveRecBind_atDesk (τ := τ) (s := s) hc hb
    by_cases hidle : r.state ≠ .idle
    · rw [if_pos hidle]
      exact congrArg Host.Outcome.next (serve_quiet h τ (ha.trans (if_pos hidle)))
    · rw [if_neg hidle]
      exact congrArg Host.Outcome.next (serve_answer h τ (ha.trans (if_neg hidle)) h.owed)
  case marks =>
    intro h n
    refine (congrArg Host.Outcome.next (serve_answer h τ (serveRecMarks_atDesk hc) h.owed)).trans ?_
    rw [List.length_drop, listField, ← List.append_assoc]
    rfl

end Sys2Proof.Machine
end

section
/-! O51, O52 and O55: the step of an order whose serving raises notices and owes MARKS_HIGH (R146, R157). -/

namespace Sys2Proof.Machine

section
variable (s : State) (τ : Nat) (o : Order)

theorem atDesk_chan (c : ChannelNo) : (s.atDesk τ o).chan c = s.chan c := rfl
theorem atDesk_entry (d : Dest) : (s.atDesk τ o).entry d = s.entry d := rfl
theorem atDesk_stamp (g : Group) : (s.atDesk τ o).stamp g = s.stamp g := rfl
theorem atDesk_recorder : (s.atDesk τ o).recorder = s.recorder := rfl

end

theorem foldl_raise_serving (ns : List Notice) (c : Control) (x : Option Order) :
    ns.foldl Control.raise { c with serving := x }
      = { ns.foldl Control.raise c with serving := x } := by
  induction ns generalizing c with
  | nil => rfl
  | cons n ns ih => rw [List.foldl_cons, raise_serving, ih, List.foldl_cons]

/-- An order whose serving raises `ns`: the MARKS_HIGH that it owes are raised behind them. -/
theorem serve_raised {s : State} {o : Order} {code : Byte} (h : Serving s o code) (τ : Nat)
    {act : Order → State → Answer} {u : State} {v : Verdict} {p : List Byte} {ns : List Notice}
    {ps : List Part} (ha : act o (s.atDesk τ o) = ⟨u, v, p⟩)
    (hc : u.control = ns.foldl Control.raise (s.atDesk τ o).control)
    (hu : SameBut (.control :: ps) (s.atDesk τ o) u)
    (hps : Part.now ∉ ps ∧ Part.recorder ∈ ps := by decide) :
    ∃ t, s.serve τ code act = t ∧ Served s t τ o v p (ns ++ u.recorder.high) ps
      ∧ SameBut [.control] u.paid t := by
  obtain ⟨hn, hr⟩ := hps
  refine ⟨_, rfl, ?_, ?_⟩ <;> rw [serve_paid h τ ha]
  · refine ⟨hu .now (by simp [hn]), ?_, ?_⟩
    · change (u.recorder.high.foldl Control.raise u.control).answered o v p = _
      have hdesk : (s.atDesk τ o).control = { s.control with serving := some o } := rfl
      rw [hc, ← List.foldl_append, hdesk, foldl_raise_serving, beginServing_answered]
    · have hpaid : SameBut [.control, .recorder] u u.paid := flushHigh_eq_paid u ▸ flushHigh_same u
      exact ((atDesk_same s τ o).mono (by simp)).trans
        ((hu.mono (by simp +contextual)).trans
          ((hpaid.mono (by simp [hr])).trans ((withControl_same _ _).mono (by simp))))
  · exact withControl_same _ _

@[simp] theorem Channel.log_cue (r : Channel) (m : Mark) : (r.log m).cue = r.cue := by
  unfold Channel.log; split <;> rfl

/-- A mark list does not read the state of its channel. -/
theorem Channel.log_withState (r : Channel) (m : Mark) (st : RecState) :
    { r.log m with state := st } = Channel.log { r with state := st } m := by
  simp only [Channel.log]; split <;> rfl

/-- One channel has changed in an event: what it holds, the recorder line as the issue of its command
leaves it, the notice that is raised and the MARKS_HIGH that is owed (R146, R149). -/
structure ChannelMoved (s u : State) (c : ChannelNo) (r : Channel) (issued : Recorder) (n : Notice)
    (owed : List Notice) : Prop where
  control  : u.control = s.control.raise n
  high     : u.recorder.high = s.recorder.high ++ owed
  commands : u.recorder.commands = issued.commands
  own      : u.chan c = r
  other    : ∀ b, b ≠ c → u.chan b = s.chan b

/-- The step of an order that changes one channel. -/
theorem serve_moved {s : State} {o : Order} {code : Byte} (h : Serving s o code) (τ : Nat)
    {act : Order → State → Answer} {u : State} {v : Verdict} {p : List Byte} {ps : List Part}
    {c : ChannelNo} {r : Channel} {issued : Recorder} {n : Notice} {owed : List Notice}
    (ha : act o (s.atDesk τ o) = ⟨u, v, p⟩) (hm : ChannelMoved (s.atDesk τ o) u c r issued n owed)
    (hu : SameBut (.control :: ps) (s.atDesk τ o) u)
    (hps : Part.now ∉ ps ∧ Part.recorder ∈ ps := by decide) :
    ∃ t, s.serve τ code act = t ∧ Served s t τ o v p (n :: owed) ps
      ∧ (t.tally = u.tally ∧ t.walls = u.walls)
      ∧ t.recorder.queue = issued.queue ∧ t.recorder.line = issued.line
      ∧ t.chan c = r ∧ ∀ b, b ≠ c → t.chan b = s.chan b := by
  obtain ⟨t, ht, hserved, hsame⟩ := serve_raised h τ (ns := [n]) ha hm.control hu hps
  have howed : u.recorder.high = owed :=
    hm.high.trans (congrArg (· ++ owed) (show (s.atDesk τ o).recorder.high = [] from h.owed))
  obtain ⟨hqueue, hline⟩ := Prod.mk.inj hm.commands
  have hrec : t.recorder = u.paid.recorder := hsame .recorder (by decide)
  have hchan (b : ChannelNo) : t.chan b = u.chan b := chan_of_same hsame (by decide) b
  rw [howed] at hserved
  exact ⟨t, ht, hserved, ⟨hsame .tally (by decide), hsame .walls (by decide)⟩, hrec ▸ hqueue,
    hrec ▸ hline, (hchan c).trans hm.own, fun b hb => (hchan b).trans (hm.other b hb)⟩

/-- The REC_STATE of a channel whose binding, and with it the map and the groups, has not changed. -/
theorem raiseRec_of_same {ps : List Part} {s u : State} (h : SameBut ps s u) {c : ChannelNo}
    {r : Channel} (hr : u.chan c = r) (hb : r.bound = (s.chan c).bound) (before : RecState)
    (k : RecCause) (hp : Part.map ∉ ps ∧ Part.groups ∉ ps := by decide) :
    u.raiseRec c before k = u.raise (recNotice c before r.state k r.clip (s.chan c).bound (s.chanGroup c)
      (s.stamp (s.chanGroup c))) := by
  rw [State.raiseRec, chanGroup_of_same h hp.1 (hr ▸ hb), stamp_of_same h hp.2, hr, hb]

/-- The count of a channel moves, and the colour of its source follows (R111, R112). -/
theorem tallyChannel_bumped (s : State) (c : ChannelNo) (up : Bool) :
    TallyMoved s (s.tallyChannel c up) (s.chanSource c) fun r => r.bump .record up := by
  rw [tallyChannel_eq]
  cases s.chanSource c with
  | none => exact ⟨rfl, rfl⟩
  | some y =>
    have hsame := bump_same s .record up (some y)
    exact compareColour_moved (State.setTally_tallyOf_self ..) rfl
      (fun z hz => State.setTally_tallyOf_of_ne _ _ _ hz) (wall_of_same hsame)
      (fun w => showing_congr (wall_of_same hsame)
        (fun d => congrArg Entry.source (entry_of_same hsame (c := d))) w y)

end Sys2Proof.Machine
end

section
/-! O51: REC_START (R140). -/

namespace Sys2Proof.Machine

section
variable (s : State) (c : ChannelNo)

/-- The state in which the clip number of a channel has risen and its ROLL is issued. -/
def State.rolled : State :=
  (s.setChan c { s.chan c with clip := (s.chan c).clip + 1 }).issue c (.roll ((s.chan c).clip + 1))
    (s.chanGroup c) (s.stamp (s.chanGroup c))

theorem rolled_same : SameBut [.recorder] s (s.rolled c) :=
  (setChan_same s c _).trans (issue_same _ c _ _ _)

theorem rolled_chan (b : ChannelNo) : (s.rolled c).chan b
    = if b = c then { s.chan c with clip := (s.chan c).clip + 1 } else s.chan b := by
  rw [State.rolled, issue_chan, State.setChan_chan]

theorem rolled_chan_self :
    (s.rolled c).chan c = { s.chan c with clip := (s.chan c).clip + 1 } := by
  rw [rolled_chan, if_pos rfl]

theorem rolled_chan_of_ne {b : ChannelNo} (h : b ≠ c) : (s.rolled c).chan b = s.chan b := by
  rw [rolled_chan, if_neg h]

theorem rolled_high : (s.rolled c).recorder.high = s.recorder.high :=
  (Recorder.issue_keeps _ c _ _ _).2

theorem rolled_commands : (s.rolled c).recorder.commands = (s.recorder.issue c
    (.roll ((s.chan c).clip + 1)) (s.chanGroup c) (s.stamp (s.chanGroup c))).commands :=
  Recorder.issue_commands (a := (s.setChan c { s.chan c with clip := (s.chan c).clip + 1 }).recorder)
    (b := s.recorder) rfl c _ _ _

/-- A channel that cues for its lead. -/
def State.cuedFor : State :=
  (s.rolled c).setChan c { (s.rolled c).chan c with state := .cueing, cue := some (s.chan c).lead }

theorem cuedFor_same : SameBut [.recorder] s (s.cuedFor c) :=
  (rolled_same s c).trans (setChan_same _ c _)

theorem cuedFor_chan_self : (s.cuedFor c).chan c = { s.chan c with
    clip := (s.chan c).clip + 1, state := .cueing, cue := some (s.chan c).lead } := by
  rw [State.cuedFor, State.setChan_chan_self, rolled_chan_self]

end

section
variable {s : State} {c : ChannelNo} {d : Dest} (hb : (s.chan c).bound = some d) (k : RecCause)
include hb

/-- A start with a lead (R140). -/
theorem cuedFor_moved : ChannelMoved s ((s.cuedFor c).raiseRec c .idle k) c
    { s.chan c with clip := (s.chan c).clip + 1, state := .cueing, cue := some (s.chan c).lead }
    (s.recorder.issue c (.roll ((s.chan c).clip + 1)) (s.entry d).group (s.stamp (s.entry d).group))
    (recNotice c .idle .cueing k ((s.chan c).clip + 1) (some d) (s.entry d).group
      (s.stamp (s.entry d).group)) [] := by
  rw [raiseRec_of_same (cuedFor_same s c) (cuedFor_chan_self s c) rfl .idle k (by decide), hb,
    ← chanGroup_of_bound hb]
  refine ⟨rfl, (rolled_high s c).trans (List.append_nil _).symm, rolled_commands s c,
    cuedFor_chan_self s c, fun b h => ?_⟩
  exact (State.setChan_chan_of_ne _ _ _ h).trans (rolled_chan_of_ne s c h)

/-- A start without a lead (R140, R141). -/
theorem rolled_enterRecording_moved (hst : (s.chan c).state = .idle) :
    ChannelMoved s ((s.rolled c).enterRecording c k) c
    (Channel.log { s.chan c with clip := (s.chan c).clip + 1, state := .recording, cue := none }
      ⟨.start, (s.entry d).group, s.stamp (s.entry d).group, (s.chan c).clip + 1, none,
        some (s.entry d).source⟩)
    (s.recorder.issue c (.roll ((s.chan c).clip + 1)) (s.entry d).group (s.stamp (s.entry d).group))
    (recNotice c .idle .recording k ((s.chan c).clip + 1) (some d) (s.entry d).group
      (s.stamp (s.entry d).group)) (s.marksHigh [c]) := by
  have hself := rolled_chan_self s c
  have hbound : ((s.rolled c).chan c).bound = some d := by rw [hself, hb]
  have hentry : (s.rolled c).entry d = s.entry d := rfl
  have hstamp (g : Group) : (s.rolled c).stamp g = s.stamp g := rfl
  refine ⟨?_, ?_, ?_, ?_, fun b h => ?_⟩
  · rw [enterRecording_control, State.startNotice, chanGroup_of_bound hbound, hbound, hself, hentry, hstamp,
      hst]
    rfl
  · rw [enterRecording_high, rolled_high, marksHigh_one, marksHigh_one, hself]
  · rw [Recorder.commands, enterRecording_queue, enterRecording_line, ← chanGroup_of_bound hb]
    exact rolled_commands s c
  · rw [enterRecording_chan_self, startedChannel_of_bound hbound, hself, hentry, hstamp]
  · rw [enterRecording_chan_of_ne _ _ _ h, rolled_chan_of_ne s c h]

/-- The source of the destination gains its record count (R111). -/
theorem rolled_enterRecording_tally :
    TallyMoved s ((s.rolled c).enterRecording c k) (s.entry d).source Tally.recorded := by
  have hmoved := enterRecording_moved (s.rolled c) c k
  rw [chanSource_of_bound (d := d) (by rw [rolled_chan_self, hb])] at hmoved
  exact hmoved.from_same rfl rfl fun _ => rfl

end

section
variable {s : State} {c : ChannelNo} (k : RecCause)

/-! What a start of a channel comes to (R140). -/

theorem recStart_unbound (hb : (s.chan c).bound = none) : s.recStart c k = (.unbound, s) := by
  simp only [State.recStart, hb, Option.isNone_none, if_true]

variable (hb : (s.chan c).bound ≠ none)
include hb

theorem recStart_active (hst : (s.chan c).state ≠ .idle) : s.recStart c k = (.recActive, s) := by
  rw [State.recStart, if_neg (by simpa using hb), if_pos (by simpa using hst)]

theorem recStart_cues (hst : (s.chan c).state = .idle) (hl : (s.chan c).lead ≠ 0) :
    s.recStart c k = (.done, (s.cuedFor c).raiseRec c .idle k) := by
  rw [State.recStart, if_neg (by simpa using hb), if_neg (by simp [hst])]
  exact if_neg hl

theorem recStart_records (hst : (s.chan c).state = .idle) (hl : (s.chan c).lead = 0) :
    s.recStart c k = (.done, (s.rolled c).enterRecording c k) := by
  rw [State.recStart, if_neg (by simpa using hb), if_neg (by simp [hst])]
  exact if_pos hl

end

section
variable {s : State} {c : ChannelNo}

/-- The channel of a REC_START is read from the order, and the reply from the channel that has started. -/
theorem serveRecStart_done {o : Order} {u : State} (hc : read8 o.payload 0 = c)
    (h : s.recStart c .order = (.done, u)) : serveRecStart o s = ⟨u, .done,
      be16 (u.chan c).clip.toNat ++ be8 (u.chan c).state.code ++ be8 ((u.chan c).cue.getD 0)⟩ := by
  simp only [serveRecStart, hc, channel?_val, h]

theorem serveRecStart_refused {o : Order} {v : Verdict} (hc : read8 o.payload 0 = c)
    (h : s.recStart c .order = (v, s)) (hv : v ≠ .done) : serveRecStart o s = answer v s := by
  simp only [serveRecStart, hc, channel?_val, h]

end

/-- Settles O51. -/
theorem recStartRollsAndCuesOrRecords : Obligations.RecStartRollsAndCuesOrRecords := by
  unfold Obligations.RecStartRollsAndCuesOrRecords
  intro τ s o c h hc r clip
  refine ⟨fun hb => ?unbound, fun hb hst => ?active, fun d hb hst => ?start⟩
  case unbound =>
    exact congrArg Host.Outcome.next (serve_quiet h τ
      (serveRecStart_refused hc (recStart_unbound (s := s.atDesk τ o) .order hb) nofun))
  case active =>
    exact congrArg Host.Outcome.next (serve_quiet h τ
      (serveRecStart_refused hc (recStart_active (s := s.atDesk τ o) .order hb hst) nofun))
  case start =>
    intro g f rolled notice
    have hbound : ((s.atDesk τ o).chan c).bound ≠ none := fun e => nomatch hb.symm.trans e
    refine ⟨fun hl => ?cues, fun hl => ?records⟩
    case cues =>
      have ha := serveRecStart_done hc (recStart_cues .order hbound hst hl)
      have hmoved := cuedFor_moved (s := s.atDesk τ o) hb .order
      rw [hmoved.own] at ha
      obtain ⟨t, ht, hserved, -, hrest⟩ := serve_moved h τ (ps := [.recorder]) ha hmoved
        ((cuedFor_same _ c).comp (raiseRec_same _ c _ _) (by decide) (by decide))
      exact ⟨t, congrArg _ ht, hserved, hrest⟩
    case records =>
      have ha := serveRecStart_done hc (recStart_records .order hbound hst hl)
      have hmoved := rolled_enterRecording_moved (s := s.atDesk τ o) hb .order hst
      have htally := rolled_enterRecording_tally (s := s.atDesk τ o) hb .order
      simp only [hmoved.own, Channel.log_clip, Channel.log_state, Channel.log_cue] at ha
      obtain ⟨t, ht, hserved, ⟨htl, hwl⟩, hrest⟩ := serve_moved h τ
        (ps := [.tally, .walls, .recorder]) ha
        hmoved (((rolled_same _ c).mono (by decide)).trans (enterRecording_same _ c _))
      rw [marksHigh_one] at hserved
      refine ⟨t, congrArg _ ht, hserved, ?_, hrest⟩
      exact (htally.of_same htl hwl).from_same rfl rfl fun _ => rfl

end Sys2Proof.Machine
end

section
/-! O52: REC_STOP (R142). -/

namespace Sys2Proof.Machine

/-- A HALT carries the clip number that the channel holds. -/
theorem issueHalt_commands {s u : State} {c : ChannelNo} (hr : u.recorder.commands = s.recorder.commands)
    (hc : (u.chan c).clip = (s.chan c).clip) : (u.issueHalt c).recorder.commands
      = (s.recorder.issue c (.halt (s.chan c).clip) .a 0).commands :=
  hc ▸ Recorder.issue_commands hr c _ .a 0

section
variable (s : State) (c : ChannelNo) (m : Mark)

/-- A channel that cues is given up: its HALT is issued. -/
def State.cueDropped : State :=
  (s.setChan c { s.chan c with state := .idle, cue := none }).issueHalt c

theorem cueDropped_same : SameBut [.recorder] s (s.cueDropped c) :=
  (setChan_same s c _).trans (issueHalt_same _ c)

theorem cueDropped_chan_self :
    (s.cueDropped c).chan c = { s.chan c with state := .idle, cue := none } := by
  rw [State.cueDropped, State.issueHalt, issue_chan, State.setChan_chan_self]

/-- A channel that records logs its last mark and is idle, and its record count is still held. -/
def State.markedIdle : State :=
  (s.logMark c m).setChan c { (s.logMark c m).chan c with state := .idle }

theorem markedIdle_same : SameBut [.recorder] s (s.markedIdle c m) :=
  (logMark_same s c m).trans (setChan_same _ c _)

theorem markedIdle_chan_self :
    (s.markedIdle c m).chan c = Channel.log { s.chan c with state := .idle } m := by
  rw [State.markedIdle, State.setChan_chan_self, logMark_chan_self, Channel.log_withState]

theorem markedIdle_chan_of_ne {b : ChannelNo} (h : b ≠ c) : (s.markedIdle c m).chan b = s.chan b := by
  rw [State.markedIdle, State.setChan_chan_of_ne _ _ _ h, logMark_chan_of_ne _ _ _ h]

/-- A channel that records stops: the mark, its record count given back (R112), its HALT. -/
def State.recordingEnded : State := ((s.markedIdle c m).tallyChannel c false).issueHalt c

theorem markedIdle_tallied : SameBut [.tally, .walls] (s.markedIdle c m)
    ((s.markedIdle c m).tallyChannel c false) := tallyChannel_same _ c false

theorem recordingEnded_same : SameBut [.tally, .walls, .recorder] s (s.recordingEnded c m) :=
  ((markedIdle_same s c m).comp (markedIdle_tallied s c m) (by decide) (by decide)).trans
    ((issueHalt_same _ c).mono (by decide))

theorem recordingEnded_chan (b : ChannelNo) :
    (s.recordingEnded c m).chan b = (s.markedIdle c m).chan b := by
  rw [State.recordingEnded, State.issueHalt, issue_chan, chan_of_same (markedIdle_tallied s c m)]

theorem recordingEnded_chan_self :
    (s.recordingEnded c m).chan c = Channel.log { s.chan c with state := .idle } m := by
  rw [recordingEnded_chan, markedIdle_chan_self]

theorem tallied_recorder :
    ((s.markedIdle c m).tallyChannel c false).recorder = (s.markedIdle c m).recorder :=
  markedIdle_tallied s c m .recorder (by decide)

theorem recordingEnded_high :
    (s.recordingEnded c m).recorder.high = s.recorder.high ++ s.marksHigh [c] := by
  rw [← logMark_high s c m]
  refine (Recorder.issue_keeps _ c _ _ _).2.trans ?_
  rw [tallied_recorder]
  rfl

theorem recordingEnded_commands : (s.recordingEnded c m).recorder.commands
    = (s.recorder.issue c (.halt (s.chan c).clip) .a 0).commands := by
  refine issueHalt_commands ?_ ?_
  · rw [tallied_recorder]
    exact congrArg₂ Prod.mk (logMark_queue s c m) (logMark_line s c m)
  · rw [chan_of_same (markedIdle_tallied s c m), markedIdle_chan_self, Channel.log_clip]

/-- The source of the channel has lost its record count (R112). -/
theorem recordingEnded_tally (before : RecState) (k : RecCause) :
    TallyMoved s ((s.recordingEnded c m).raiseRec c before k) (s.chanSource c)
      fun r => r.bump .record false := by
  have hended := (issueHalt_same ((s.markedIdle c m).tallyChannel c false) c).comp
    (raiseRec_same _ c before k) (rs := [.recorder, .control]) (by decide) (by decide)
  have hsource : (s.markedIdle c m).chanSource c = s.chanSource c :=
    chanSource_of_same (markedIdle_same s c m)
      (hb := by rw [markedIdle_chan_self, Channel.log_bound])
  have hmoved := tallyChannel_bumped (s.markedIdle c m) c false
  rw [hsource] at hmoved
  have hsame := markedIdle_same s c m
  exact (hmoved.from_same (hsame .tally (by decide)) (hsame .walls (by decide)) fun d =>
    congrArg Entry.source (entry_of_same hsame (by decide) d)).of_same
    (hended .tally (by decide)) (hended .walls (by decide))

end

/-- The STOP mark of a channel that is bound to `d` (R145). -/
def State.stopMark (s : State) (c : ChannelNo) (d : Dest) : Mark :=
  ⟨.stop, (s.entry d).group, s.stamp (s.entry d).group, (s.chan c).clip, some (s.entry d).source, none⟩

section
variable {s : State} {c : ChannelNo} (k : RecCause)

/-! What a stop of a channel comes to, by its state (R142). -/

theorem recStop_idle (h : (s.chan c).state = .idle) : s.recStop c k = s := by
  simp only [State.recStop, h]

theorem recStop_cueing (h : (s.chan c).state = .cueing) :
    s.recStop c k = (s.cueDropped c).raiseRec c .cueing k := by
  simp only [State.recStop, h]
  rfl

variable {d : Dest} (hb : (s.chan c).bound = some d)
include hb

theorem recStop_recording (h : (s.chan c).state = .recording) :
    s.recStop c k = (s.recordingEnded c (s.stopMark c d)).raiseRec c .recording k := by
  rw [State.stopMark, ← chanGroup_of_bound hb, ← chanSource_of_bound hb]
  simp only [State.recStop, h]
  rfl

theorem cueDropped_moved : ChannelMoved s ((s.cueDropped c).raiseRec c .cueing k) c
    { s.chan c with state := .idle, cue := none } (s.recorder.issue c (.halt (s.chan c).clip) .a 0)
    (recNotice c .cueing .idle k (s.chan c).clip (some d) (s.entry d).group
      (s.stamp (s.entry d).group)) [] := by
  rw [raiseRec_of_same (cueDropped_same s c) (cueDropped_chan_self s c) rfl .cueing k (by decide),
    chanGroup_of_bound hb, hb]
  refine ⟨rfl, ?_, issueHalt_commands rfl (by rw [State.setChan_chan_self]), cueDropped_chan_self s c,
    fun b h => (issue_chan _ c _ _ _ b).trans (State.setChan_chan_of_ne _ _ _ h)⟩
  exact (Recorder.issue_keeps _ c _ _ _).2.trans (List.append_nil _).symm

theorem recordingEnded_moved (m : Mark) :
    ChannelMoved s ((s.recordingEnded c m).raiseRec c .recording k) c
      (Channel.log { s.chan c with state := .idle } m)
      (s.recorder.issue c (.halt (s.chan c).clip) .a 0)
      (recNotice c .recording .idle k (s.chan c).clip (some d) (s.entry d).group
        (s.stamp (s.entry d).group)) (s.marksHigh [c]) := by
  rw [raiseRec_of_same (recordingEnded_same s c m) (recordingEnded_chan_self s c m)
    (Channel.log_bound ..) .recording k (by decide), Channel.log_state, Channel.log_clip,
    chanGroup_of_bound hb, hb]
  have hcontrol : (s.recordingEnded c m).control = s.control :=
    recordingEnded_same s c m .control (by decide)
  refine ⟨?_, ?_, ?_, ?_, fun b h => ?_⟩
  · rw [State.raise_control, hcontrol]
  · rw [State.raise_recorder, recordingEnded_high]
  · rw [State.raise_recorder, recordingEnded_commands]
  · rw [State.raise_chan, recordingEnded_chan_self]
  · rw [State.raise_chan, recordingEnded_chan, markedIdle_chan_of_ne s c m h]

end

theorem serveRecStop_eq {s : State} {o : Order} {c : ChannelNo} (hc : read8 o.payload 0 = c) :
    serveRecStop o s = ⟨s.recStop c .order, .done, []⟩ := by
  simp only [serveRecStop, hc, channel?_val, answer]

/-- Settles O52. -/
theorem recStopHaltsTheChannel : Obligations.RecStopHaltsTheChannel := by
  unfold Obligations.RecStopHaltsTheChannel
  intro τ s o c h hc r halted
  have ha := serveRecStop_eq (s := s.atDesk τ o) hc
  have hchan := atDesk_chan s τ o c
  refine ⟨fun hst => ?idle, ?stop⟩
  case idle =>
    rw [recStop_idle .order (hchan ▸ hst)] at ha
    exact congrArg Host.Outcome.next (serve_quiet h τ ha)
  intro d hb g f notice
  have hbound : ((s.atDesk τ o).chan c).bound = some d := hchan ▸ hb
  refine ⟨fun hst => ?cueing, fun hst => ?recording⟩
  case cueing =>
    have hnotice : notice = recNotice c .cueing .idle .order r.clip (some d) g f := by
      rw [← hst]
    rw [recStop_cueing .order (hchan ▸ hst)] at ha
    have hmoved := cueDropped_moved .order hbound
    rw [hchan, atDesk_entry, atDesk_stamp, atDesk_recorder] at hmoved
    obtain ⟨t, ht, hserved, -, hrest⟩ := serve_moved h τ (ps := [.recorder]) ha hmoved
      ((cueDropped_same _ c).comp (raiseRec_same _ c _ _) (by decide) (by decide))
    exact ⟨t, congrArg _ ht, hnotice ▸ hserved, hrest⟩
  case recording =>
    have hnotice : notice = recNotice c .recording .idle .order r.clip (some d) g f := by
      rw [← hst]
    rw [recStop_recording .order hbound (hchan ▸ hst)] at ha
    have hmoved := recordingEnded_moved .order hbound ((s.atDesk τ o).stopMark c d)
    have htally := recordingEnded_tally (s.atDesk τ o) c ((s.atDesk τ o).stopMark c d)
      .recording .order
    rw [hchan, atDesk_entry, atDesk_stamp, atDesk_recorder, marksHigh_one, hchan] at hmoved
    rw [chanSource_of_bound hbound, atDesk_entry] at htally
    obtain ⟨t, ht, hserved, ⟨htl, hwl⟩, hrest⟩ := serve_moved h τ
        (ps := [.tally, .walls, .recorder]) ha
      hmoved ((recordingEnded_same _ c _).comp (raiseRec_same _ c _ _) (by decide) (by decide))
    refine ⟨t, congrArg _ ht, hnotice ▸ hserved, ?_, hrest⟩
    exact (htally.of_same htl hwl).from_same rfl rfl fun _ => rfl

end Sys2Proof.Machine
end

section
/-! O55: BLOCK_RESET of RECORDERS (R150). -/

namespace Sys2Proof.Machine

theorem tallyOf_of_same {ps : List Part} {s t : State} (h : SameBut ps s t)
    (hp : Part.tally ∉ ps := by decide) (x : Source) : t.tallyOf x = s.tallyOf x := by
  have ht : t.tally = s.tally := h .tally hp
  simp only [State.tallyOf, ht]

/-! ### One channel is reset -/

section
variable (s : State) (c : ChannelNo)

/-- The source that loses a record count when a channel is made idle (R112). -/
def State.recordedBy : Option Source :=
  if (s.chan c).state = .recording then s.chanSource c else none

/-- The REC_STATE of a channel that the block reset makes idle (R149). -/
def State.idledNotice : Notice :=
  recNotice c (s.chan c).state .idle .blockReset (s.chan c).clip (s.chan c).bound (s.chanGroup c)
    (s.stamp (s.chanGroup c))

/-- What a channel holds after the block reset. -/
def State.idledChannel : Channel :=
  { s.chan c with
    state := .idle, cue := if (s.chan c).state = .idle then (s.chan c).cue else none
    marks := [], wrapped := false }

/-- An active channel is idle, and has given back its record count. -/
def State.uncounted : State :=
  (s.setChan c { s.chan c with state := .idle, cue := none }).bump .record false (s.recordedBy c)

theorem uncounted_same : SameBut [.tally, .recorder] s (s.uncounted c) :=
  (setChan_same s c _).comp (bump_same _ _ _ _) (by decide) (by decide)

theorem uncounted_recorder : (s.uncounted c).recorder
    = (s.setChan c { s.chan c with state := .idle, cue := none }).recorder :=
  bump_same _ _ _ _ .recorder (by decide)

theorem uncounted_chan_self :
    (s.uncounted c).chan c = { s.chan c with state := .idle, cue := none } := by
  rw [State.uncounted, chan_of_same (bump_same _ _ _ _), State.setChan_chan_self]

/-- The HALT of the channel is issued, and REC_STATE is raised. -/
def State.haltTold : State := ((s.uncounted c).issueHalt c).raise (s.idledNotice c)

end

section
variable {s : State} {c : ChannelNo}

theorem resetChannel_idle (h : (s.chan c).state = .idle) :
    s.resetChannel c = s.setChan c (s.idledChannel c) := by
  have hidled : s.idledChannel c = { s.chan c with marks := [], wrapped := false } := by
    rw [State.idledChannel, if_pos h, ← h]
  simp only [State.resetChannel, h, hidled, beq_self_eq_true, if_true]

theorem resetChannel_active (h : (s.chan c).state ≠ .idle) :
    s.resetChannel c = (s.haltTold c).setChan c (s.idledChannel c) := by
  have hset := setChan_same s c { s.chan c with state := .idle, cue := none }
  have hsource : (s.setChan c { s.chan c with state := .idle, cue := none }).chanSource c
      = s.chanSource c := chanSource_of_same hset (hb := by rw [State.setChan_chan_self])
  have hcount : (if (s.chan c).state == .recording then
        (s.setChan c { s.chan c with state := .idle, cue := none }).bump .record false (s.chanSource c)
      else s.setChan c { s.chan c with state := .idle, cue := none }) = s.uncounted c := by
    unfold State.uncounted State.recordedBy
    by_cases hr : (s.chan c).state = .recording
    · rw [if_pos hr, if_pos (by simp [hr])]
    · rw [if_neg hr, if_neg (by simpa using hr)]
      rfl
  have hhalt : ((s.uncounted c).issueHalt c).chan c = { s.chan c with state := .idle, cue := none } := by
    rw [State.issueHalt, issue_chan, uncounted_chan_self]
  have hraise : ((s.uncounted c).issueHalt c).raiseRec c (s.chan c).state .blockReset = s.haltTold c :=
    raiseRec_of_same ((uncounted_same s c).trans ((issueHalt_same _ c).mono (by decide))) hhalt rfl
      (s.chan c).state .blockReset (by decide)
  unfold State.resetChannel
  dsimp only
  rw [if_neg (by simpa using h), hsource, hcount, hraise, State.idledChannel, if_neg h, State.haltTold,
    State.raise_chan, hhalt]

/-! What the reset of a channel makes of each part of the state. -/

theorem resetChannel_chan_self (s : State) (c : ChannelNo) :
    (s.resetChannel c).chan c = s.idledChannel c := by
  by_cases h : (s.chan c).state = .idle
  · rw [resetChannel_idle h, State.setChan_chan_self]
  · rw [resetChannel_active h, State.setChan_chan_self]

theorem resetChannel_control (s : State) (c : ChannelNo) : (s.resetChannel c).control
    = if (s.chan c).state ≠ .idle then s.control.raise (s.idledNotice c) else s.control := by
  by_cases h : (s.chan c).state = .idle
  · rw [resetChannel_idle h, if_neg (not_not.2 h), State.setChan_control]
  · have hcontrol : ((s.uncounted c).issueHalt c).control = s.control :=
      ((uncounted_same s c).trans ((issueHalt_same _ c).mono (by decide))) .control (by decide)
    rw [resetChannel_active h, if_pos h, State.setChan_control, State.haltTold, State.raise_control,
      hcontrol]

theorem resetChannel_high (s : State) (c : ChannelNo) :
    (s.resetChannel c).recorder.high = s.recorder.high := by
  by_cases h : (s.chan c).state = .idle
  · rw [resetChannel_idle h, State.setChan_high]
  · rw [resetChannel_active h, State.setChan_high, State.haltTold, State.raise_recorder]
    exact (Recorder.issue_keeps _ c _ _ _).2.trans (by rw [uncounted_recorder, State.setChan_high])

theorem resetChannel_commands (s : State) (c : ChannelNo) : (s.resetChannel c).recorder.commands
    = if (s.chan c).state ≠ .idle
      then (s.recorder.issue c (.halt (s.chan c).clip) .a 0).commands else s.recorder.commands := by
  by_cases h : (s.chan c).state = .idle
  · rw [resetChannel_idle h, if_neg (not_not.2 h)]
    rfl
  · rw [resetChannel_active h, if_pos h,
      ← issueHalt_commands (u := s.uncounted c) (by rw [uncounted_recorder]; rfl)
        (by rw [uncounted_chan_self])]
    rfl

theorem uncounted_tallyOf (s : State) (c : ChannelNo) (x : Source) : (s.uncounted c).tallyOf x
    = if s.recordedBy c = some x then (s.tallyOf x).bump .record false else s.tallyOf x := by
  by_cases h : s.recordedBy c = some x
  · rw [if_pos h, State.uncounted, h]
    exact State.setTally_tallyOf_self ..
  · rw [if_neg h, State.uncounted, bump_tallyOf_of_ne _ h, State.setChan_tallyOf]

theorem resetChannel_tallyOf (s : State) (c : ChannelNo) (x : Source) : (s.resetChannel c).tallyOf x
    = if s.recordedBy c = some x then (s.tallyOf x).bump .record false else s.tallyOf x := by
  by_cases h : (s.chan c).state = .idle
  · rw [resetChannel_idle h, State.recordedBy, if_neg (by simp [h]), State.setChan_tallyOf]
  · rw [← uncounted_tallyOf, resetChannel_active h, State.setChan_tallyOf, State.haltTold,
      State.raise_tallyOf]
    exact tallyOf_of_same (issueHalt_same (s.uncounted c) c) (by decide) x

end

/-- The reset of one channel leaves all that the reset of another reads. -/
theorem resetChannel_cueSame (s : State) {b c : ChannelNo} (h : b ≠ c) :
    CueSame b s (s.resetChannel c) :=
  ⟨resetChannel_chan_of_ne s h, (resetChannel_same s c).mono (by decide)⟩

section
variable {c : ChannelNo} {s u : State} (h : CueSame c s u)
include h

theorem CueSame.recordedBy : u.recordedBy c = s.recordedBy c := by
  simp only [State.recordedBy, h.chan, h.chanSource]

theorem CueSame.idledNotice : u.idledNotice c = s.idledNotice c := by
  simp only [State.idledNotice, h.chan, h.chanGroup, stamp_of_same h.same]

theorem CueSame.idledChannel : u.idledChannel c = s.idledChannel c := by
  simp only [State.idledChannel, h.chan]

end

/-! ### Every channel is reset -/

/-- A tally record that gives back some record counts. -/
def Tally.givesBack (r : Tally) (n : Nat) : Tally := { r with record := r.record - n }

theorem foldl_bump_record {ι : Type} (p : ι → Prop) [DecidablePred p] (l : List ι) (r : Tally) :
    l.foldl (fun r c => if p c then r.bump .record false else r) r
      = r.givesBack (l.countP fun c => p c) := by
  induction l generalizing r with
  | nil => rfl
  | cons c l ih =>
    rw [List.foldl_cons, ih, List.countP_cons]
    by_cases h : p c
    · simp [h, Tally.bump, Tally.givesBack, Nat.sub_sub, Nat.add_comm]
    · simp [h]

/-- The channels that cue or record, ascending. -/
def State.activeChannels (s : State) : List ChannelNo :=
  (List.finRange 16).filter fun c => (s.chan c).state ≠ .idle

/-- Every channel is reset, and no colour is compared yet. -/
def State.channelsReset (s : State) : State := (List.finRange 16).foldl State.resetChannel s

section
variable (s : State)

theorem channelsReset_same : SameBut [.control, .tally, .recorder] s s.channelsReset :=
  SameBut.foldl resetChannel_same _ s

theorem channelsReset_chan (c : ChannelNo) : s.channelsReset.chan c = s.idledChannel c :=
  foldl_own (I := fun _ => True) (get := State.chan) (fun _ _ => trivial)
    (fun s c _ => resetChannel_chan_self s c) (fun s _ _ h => resetChannel_chan_of_ne s h)
    (fun s _ _ _ h => (resetChannel_cueSame s h).idledChannel) (List.nodup_finRange 16) trivial
    (List.mem_finRange c)

theorem channelsReset_control : s.channelsReset.control
    = (s.activeChannels.map s.idledNotice).foldl Control.raise s.control := by
  rw [List.foldl_map, State.activeChannels, List.foldl_filter]
  simp only [decide_eq_true_eq]
  exact foldl_part (I := fun _ => True) (part := State.control)
    (act := fun s c a => if (s.chan c).state ≠ .idle then a.raise (s.idledNotice c) else a)
    (fun _ _ => trivial) (fun s c _ => resetChannel_control s c)
    (fun s i j _ h => by simp only [(resetChannel_cueSame s h).chan, (resetChannel_cueSame s h).idledNotice])
    (List.nodup_finRange 16) trivial

theorem channelsReset_high : s.channelsReset.recorder.high = s.recorder.high :=
  foldl_keeps (f := State.resetChannel) (I := fun u => u.recorder.high = s.recorder.high)
    (fun c hu => (resetChannel_high _ c).trans hu) _ rfl

theorem recordedBy_eq_some {s : State} {c : ChannelNo} {x : Source} : s.recordedBy c = some x
    ↔ (s.chan c).state = .recording ∧ s.chanSource c = some x := by
  unfold State.recordedBy
  split <;> simp [*]

theorem recording_eq_countP (x : Source) :
    s.recording x = (List.finRange 16).countP fun c => s.recordedBy c = some x := by
  refine List.countP_congr fun c _ => ?_
  rw [decide_eq_true_iff, recordedBy_eq_some]
  simp

/-- A source loses one record count for each channel that has recorded it. -/
theorem channelsReset_tallyOf (x : Source) : s.channelsReset.tallyOf x
    = (s.tallyOf x).givesBack (s.recording x) := by
  rw [recording_eq_countP, ← foldl_bump_record]
  exact foldl_part (I := fun _ => True) (part := fun s => s.tallyOf x)
    (act := fun s c a => if s.recordedBy c = some x then a.bump .record false else a)
    (fun _ _ => trivial) (fun s c _ => resetChannel_tallyOf s c x)
    (fun s i j _ h => by simp only [(resetChannel_cueSame s h).recordedBy]) (List.nodup_finRange 16)
    trivial

end

/-- The HALTs of the active channels, in ascending order. -/
theorem foldl_resetChannel_commands {l : List ChannelNo} (hl : l.Nodup) {s u : State} {r : Recorder}
    (hr : u.recorder.commands = r.commands) (hc : ∀ c ∈ l, u.chan c = s.chan c) :
    (l.foldl State.resetChannel u).recorder.commands
      = ((l.filter fun c => (s.chan c).state ≠ .idle).foldl
          (fun r c => r.issue c (.halt (s.chan c).clip) .a 0) r).commands := by
  induction l generalizing u r with
  | nil => exact hr
  | cons c l ih =>
    obtain ⟨hcl, hl⟩ := List.nodup_cons.1 hl
    have hrest : ∀ b ∈ l, (u.resetChannel c).chan b = s.chan b := fun b hb =>
      (resetChannel_chan_of_ne u (ne_of_mem_of_not_mem hb hcl)).trans (hc b (List.mem_cons_of_mem c hb))
    have hstep := resetChannel_commands u c
    rw [hc c List.mem_cons_self] at hstep
    rw [List.foldl_cons]
    by_cases h : (s.chan c).state = .idle
    · rw [List.filter_cons_of_neg (by simp [h])]
      exact ih hl ((hstep.trans (if_neg (not_not.2 h))).trans hr) hrest
    · rw [List.filter_cons_of_pos (by simp [h]), List.foldl_cons]
      exact ih hl ((hstep.trans (if_pos h)).trans (Recorder.issue_commands hr c _ .a 0)) hrest

/-! ### The colours are compared (R113) -/

/-- The colours of some sources are compared one after the other. -/
def State.coloursCompared (s : State) (l : List Source) : State :=
  l.foldl (fun s x => s.compareColour (some x)) s

section
variable (s : State) (l : List Source)

theorem coloursCompared_same : SameBut [.tally, .walls] s (s.coloursCompared l) :=
  SameBut.foldl (fun s x => compareColour_same s (some x)) l s

theorem coloursCompared_tallyOf (x : Source) : (s.coloursCompared l).tallyOf x
    = if x ∈ l then { s.tallyOf x with colour := colourOf (s.tallyOf x) } else s.tallyOf x := by
  unfold State.coloursCompared
  induction l generalizing s with
  | nil => rfl
  | cons y l ih =>
    rw [List.foldl_cons, ih, compareColour_tallyOf]
    by_cases hy : y = x
    · subst hy
      simp [colourOf]
    · simp [hy, Ne.symm hy]

/-- Where neither the walls nor the map change, and the colour stays, there is nothing to tell. -/
theorem ColourTold.of_same {ps : List Part} {s t : State} {x : Source} (h : SameBut ps s t)
    (hcol : (t.tallyOf x).colour = (s.tallyOf x).colour)
    (hp : Part.walls ∉ ps ∧ Part.map ∉ ps := by decide) : ColourTold x s t where
  keeps w i hi := by rwa [wall_of_same h hp.1]
  shows w := showing_congr (wall_of_same h hp.1)
    (fun d => congrArg Entry.source (entry_of_same h hp.2 d)) w x
  told hne := absurd hcol hne

theorem compareColour_colourTold (y x : Source) : ColourTold x s (s.compareColour (some y)) :=
  (compareColour_moved (s := s) (y := y) (f := id) rfl rfl (fun _ _ => rfl) (fun _ => rfl)
    fun _ => rfl).colourTold (compareColour_same s (some y) .map (by decide)) x

theorem coloursCompared_colourTold (x : Source) : ColourTold x s (s.coloursCompared l) :=
  foldl_keeps (I := fun u => ColourTold x s u) (fun y hu => hu.trans (compareColour_colourTold _ y x)) l
    (.refl x s)

theorem resetRecorders_eq : s.resetRecorders = s.channelsReset.coloursCompared s.recordedSources := rfl

end

section
variable (s : State)

theorem recording_eq_zero {x : Source} : s.recording x = 0 ↔ x ∉ s.recordedSources := by
  rw [mem_recordedSources, recording_eq_countP, List.countP_eq_zero]
  simp [recordedBy_eq_some]

theorem resetRecorders_tallyOf (x : Source) :
    let r1 := (s.tallyOf x).givesBack (s.recording x)
    s.resetRecorders.tallyOf x
      = if s.recording x = 0 then s.tallyOf x else { r1 with colour := colourOf r1 } := by
  intro r1
  rw [resetRecorders_eq, coloursCompared_tallyOf, channelsReset_tallyOf]
  by_cases h : s.recording x = 0
  · rw [if_pos h, if_neg ((recording_eq_zero s).1 h), h]
    rfl
  · rw [if_neg h, if_pos (by_contra fun hx => h ((recording_eq_zero s).2 hx))]

theorem resetRecorders_control : s.resetRecorders.control
    = (s.activeChannels.map s.idledNotice).foldl Control.raise s.control :=
  (coloursCompared_same _ _ .control (by decide)).trans (channelsReset_control s)

theorem resetRecorders_recorder : s.resetRecorders.recorder = s.channelsReset.recorder :=
  coloursCompared_same _ _ .recorder (by decide)

theorem resetRecorders_high : s.resetRecorders.recorder.high = s.recorder.high := by
  rw [resetRecorders_recorder, channelsReset_high]

theorem resetRecorders_chan (c : ChannelNo) : s.resetRecorders.chan c = s.idledChannel c :=
  (chan_of_same (coloursCompared_same _ _) (by decide) c).trans (channelsReset_chan s c)

/-- The HALTs are issued in ascending order of channel (R137, R150). -/
theorem resetRecorders_commands : s.resetRecorders.recorder.commands
    = (s.activeChannels.foldl (fun r c => r.issue c (.halt (s.chan c).clip) .a 0) s.recorder).commands := by
  rw [resetRecorders_recorder]
  exact foldl_resetChannel_commands (List.nodup_finRange 16) rfl fun _ _ => rfl

/-- The tiles that show a source whose colour the reset changes are queued (R114). -/
theorem resetRecorders_colourTold (x : Source) : ColourTold x s s.resetRecorders := by
  refine .trans (.of_same (channelsReset_same s) ?_) (coloursCompared_colourTold _ _ x)
  rw [channelsReset_tallyOf]
  rfl

end

/-- Settles O55. -/
theorem recordersBlockResetIdlesEveryChannel : Obligations.RecordersBlockResetIdlesEveryChannel := by
  unfold Obligations.RecordersBlockResetIdlesEveryChannel
  intro τ s o h hblock active halted
  have hb : block? (read8 o.payload 0) (read8 o.payload 1) = some .recorders :=
    congrArg (block? · (read8 o.payload 1)) hblock
  have ha : serveBlockReset o (s.atDesk τ o)
      = ⟨(s.atDesk τ o).resetRecorders, .done, be8 3 ++ be8 0xFF⟩ := serveBlockReset_atDesk h hb
  obtain ⟨t, ht, hserved, hsame⟩ := serve_raised h τ (ps := [.tally, .walls, .recorder]) ha
    (resetRecorders_control _) (resetRecorders_same _)
  have hrec : t.recorder = (s.atDesk τ o).resetRecorders.paid.recorder := hsame .recorder (by decide)
  obtain ⟨hqueue, hline⟩ := Prod.mk.inj (resetRecorders_commands (s.atDesk τ o))
  refine ⟨t, congrArg _ ((serveBlock_eq h τ hb rfl).trans ht), ?served, fun c => ?chan, hrec ▸ hqueue,
    hrec ▸ hline, fun x => ?tally⟩
  case served =>
    rw [resetRecorders_high, show (s.atDesk τ o).recorder.high = [] from h.owed, List.append_nil] at hserved
    exact hserved
  case chan =>
    rw [chan_of_same hsame, paid_chan]
    exact resetRecorders_chan (s.atDesk τ o) c
  case tally =>
    intro r r1
    have hdesk : (s.atDesk τ o).recording x = s.recording x := rfl
    have htally : t.tallyOf x = (s.atDesk τ o).resetRecorders.tallyOf x :=
      tallyOf_of_same hsame (by decide) x
    have htold := resetRecorders_colourTold (s.atDesk τ o) x
    have hreset := resetRecorders_tallyOf (s.atDesk τ o) x
    rw [hdesk] at hreset
    refine ⟨htally.trans hreset, fun hne hcol w i hi => ?_⟩
    rw [wall_of_same hsame]
    refine htold.told ?_ w i hi
    rw [hreset, if_neg hne]
    exact hcol

end Sys2Proof.Machine
end

section
/-! O6: while the reset pin is held, no command but its release moves a block from its reset values (R165). -/

namespace Sys2Proof.Machine

/-! ### The shape of a row -/

/-- The rows that change a pin, that end a transmission, and REF_EDGE, whose edge may find a tolerance run
out before it. -/
def atTheLines : Instr → Bool
  | .resetPinAssert | .resetPinRelease | .refEdge _ _ _ | .carrierGain _ | .carrierLoss _
  | .matrixTxComplete _ | .triggerRawChange _ _ _ | .wallRecordTxComplete _ _ | .recorderTxComplete _
  | .controlTxComplete _ | .deviceResetTakesEffect => true
  | _ => false

/-- Every other row is an event, the serving of an order, or nothing. -/
theorem exec_shape {c : Instr} (h : atTheLines c = false) (s : State) :
    exec c s = .next s ∨ (∃ τ f, exec c s = .next (s.event τ f))
      ∨ ∃ τ mine act, exec c s = .next (s.serveIf τ mine act) := by
  cases c with
  | resetPinAssert | resetPinRelease | refEdge τ g order | carrierGain τ | carrierLoss τ
  | matrixTxComplete τ | triggerRawChange τ i level | wallRecordTxComplete τ w | recorderTxComplete τ
  | controlTxComplete τ | deviceResetTakesEffect => exact nomatch h
  | controlFrameReceived τ bytes => exact .inr (.inl ⟨_, _, rfl⟩)
  | takeFallsDue τ => exact .inr (.inl ⟨_, _, rfl⟩)
  | matrixBadFrame τ bytes => exact .inr (.inl ⟨_, _, rfl⟩)
  | controlFrameGapTimeout =>
    change execControlFrameGapTimeout s = _ ∨ (∃ τ f, execControlFrameGapTimeout s = _) ∨ _
    unfold execControlFrameGapTimeout
    split
    · exact .inl rfl
    · exact .inr (.inl ⟨_, _, rfl⟩)
  | toleranceExpiry g order =>
    change execToleranceExpiry g order s = _ ∨ (∃ τ f, execToleranceExpiry g order s = _) ∨ _
    unfold execToleranceExpiry
    split
    · exact .inr (.inl ⟨_, _, rfl⟩)
    · exact .inl rfl
  | freewheelBoundary g order =>
    change execFreewheelBoundary g order s = _ ∨ (∃ τ f, execFreewheelBoundary g order s = _) ∨ _
    unfold execFreewheelBoundary
    split
    · exact .inr (.inl ⟨_, _, rfl⟩)
    · exact .inl rfl
  | overdueEntry d =>
    change execOverdueEntry d s = _ ∨ (∃ τ f, execOverdueEntry d s = _) ∨ _
    unfold execOverdueEntry
    split
    · exact .inl rfl
    · split
      · exact .inr (.inl ⟨_, _, rfl⟩)
      · exact .inl rfl
  | takeTimedOut d =>
    change execTakeTimedOut d s = _ ∨ (∃ τ f, execTakeTimedOut d s = _) ∨ _
    unfold execTakeTimedOut
    split
    · exact .inl rfl
    · split
      · exact .inr (.inl ⟨_, _, rfl⟩)
      · exact .inl rfl
  | routeReport τ dest source token held survey =>
    change execRouteReport τ dest source token held survey s = _
      ∨ (∃ τ' f, execRouteReport τ dest source token held survey s = _) ∨ _
    unfold execRouteReport State.wholeMessage
    split
    · exact .inr (.inl ⟨_, _, rfl⟩)
    · exact .inl rfl
  | surveyEnd τ dests sources =>
    change execSurveyEnd τ dests sources s = _ ∨ (∃ τ' f, execSurveyEnd τ dests sources s = _) ∨ _
    unfold execSurveyEnd State.wholeMessage
    split
    · exact .inr (.inl ⟨_, _, rfl⟩)
    · exact .inl rfl
  | matrixFrameGapTimeout =>
    change execMatrixFrameGapTimeout s = _ ∨ (∃ τ f, execMatrixFrameGapTimeout s = _) ∨ _
    unfold execMatrixFrameGapTimeout
    split
    · exact .inl rfl
    · exact .inr (.inl ⟨_, _, rfl⟩)
  | qualifiedEdge i =>
    change execQualifiedEdge i s = _ ∨ (∃ τ f, execQualifiedEdge i s = _) ∨ _
    unfold execQualifiedEdge
    split
    · exact .inl rfl
    · exact .inr (.inl ⟨_, _, rfl⟩)
  | cueEnd c =>
    change execCueEnd c s = _ ∨ (∃ τ f, execCueEnd c s = _) ∨ _
    unfold execCueEnd
    split
    · exact .inr (.inl ⟨_, _, rfl⟩)
    · exact .inl rfl
  | _ => exact .inr (.inr ⟨_, _, _, rfl⟩)

theorem serveIf_refuses {s : State} (h : s.canServe = false) (τ : Nat) (mine : Order → Bool)
    (act : Order → State → Answer) : s.serveIf τ mine act = s := by
  rw [State.serveIf, h, if_neg Bool.false_ne_true]

/-! ### The pin is asserted -/

section
variable (s : State)

theorem assertReset_entry (d : Dest) : s.assertReset.entry d = Entry.reset := reset_entry d

theorem assertReset_tallyOf (x : Source) : s.assertReset.tallyOf x = Tally.reset := reset_tallyOf x

theorem assertReset_chan (c : ChannelNo) : s.assertReset.chan c = Channel.reset := reset_chan c

theorem assertReset_control : s.assertReset.control = { Control.reset with line := s.control.line } := rfl

/-- The raw levels are the pins' own. -/
theorem assertReset_trig (i : InputNo) :
    s.assertReset.trig i = { Trigger.reset with raw := (s.trig i).raw } := by
  simp [State.trig, State.assertReset, Trigger.resetKeepRaw]

/-- The record under way on a wall line is sent to its end. -/
theorem assertReset_wall (w : WallNo) :
    s.assertReset.wall w = { Wall.reset with line := (s.wall w).line.take 1 } := by
  simp [State.wall, State.assertReset, Wall.resetKeepLine, lineTail]

theorem assertReset_nameOf (x : Source) : s.assertReset.nameOf x = nameReset := by
  simp [State.nameOf, State.assertReset, State.reset]

theorem assertReset_resetValues : ResetValues s.assertReset where
  now := rfl
  control := assertReset_control s
  entries := assertReset_entry s
  counts := ⟨rfl, rfl⟩
  panels := reset_panel
  groups := reset_grp
  sched := rfl
  link := ⟨rfl, rfl, rfl, rfl, rfl, rfl⟩
  pool := reset_token
  slots := reset_slot
  triggers i := by rw [assertReset_trig]; rfl
  tally := assertReset_tallyOf s
  walls w := by rw [assertReset_wall]; exact ⟨rfl, rfl, rfl, rfl⟩
  tiles w i := by rw [State.tile_eq, assertReset_wall]; simp [Wall.reset, Wall.tileAt, Tile.reset]
  names x i := by simp [assertReset_nameOf, nameReset]
  channels := assertReset_chan s
  line := ⟨rfl, rfl⟩

end

/-- The running time starts, and the pin is no longer held. -/
def State.started (s : State) : State := { s with now := 0, pins := { s.pins with reset := false } }

theorem releaseReset_eq (s : State) : s.releaseReset = (List.finRange 8).foldl State.readRaw
    ((List.finRange 16).foldl State.issueHalt s.started.readCarrier) := rfl

theorem readCarrier_same (s : State) : SameBut [.control, .link] s s.readCarrier := by
  unfold State.readCarrier
  split
  · exact startSurvey_same s
  · exact .refl _ s

/-- What the blocks do of their own when the pin is released. -/
theorem releaseReset_started (s : State) : SameBut (.triggers :: edgeParts) s.started s.releaseReset := by
  rw [releaseReset_eq]
  exact (((readCarrier_same _).mono (by decide)).trans
    ((SameBut.foldl issueHalt_same (List.finRange 16) _).mono (by decide))).trans
    (SameBut.foldl readRaw_same (List.finRange 8) _)

/-- A part that leaves the reset does not hold its pin. -/
theorem releaseReset_pins (s : State) : s.releaseReset.pins = { s.pins with reset := false } :=
  releaseReset_started s .pins (by decide)

theorem releaseReset_groups (s : State) : s.releaseReset.groups = s.groups :=
  releaseReset_started s .groups (by decide)

theorem deviceReset_pins (s : State) : s.deviceReset.pins.reset = false := by
  rw [State.deviceReset, releaseReset_pins]

theorem event_pins (s : State) (τ : Nat) {ps : List Part} {f : State → State} (hf : ∀ s, SameBut ps s (f s))
    (hp : Part.pins ∉ ps := by decide) : (s.event τ f).pins = s.pins :=
  event_same hf s τ .pins (by simp [hp])

/-- Only its assertion brings the pin to be held. -/
theorem exec_asserts {c : Instr} {s t : State} (hr : s.pins.reset = false) (ht : exec c s = .next t)
    (hheld : t.pins.reset = true) : t = s.assertReset := by
  have hdenied {u : State} (hu : Host.Outcome.next (φ := Fault) (ρ := Refusal) u = .next t)
      (hpins : u.pins.reset = false) : t = s.assertReset :=
    absurd hheld (by rw [← Host.Outcome.next.inj hu, hpins]; exact Bool.false_ne_true)
  cases c with
  | resetPinAssert =>
    change execResetPinAssert s = _ at ht
    rw [execResetPinAssert, hr] at ht
    exact (Host.Outcome.next.inj ht).symm
  | resetPinRelease =>
    change execResetPinRelease s = _ at ht
    rw [execResetPinRelease, hr] at ht
    exact hdenied ht hr
  | carrierGain τ =>
    change execCarrierGain τ s = _ at ht
    unfold execCarrierGain at ht
    split at ht
    · exact hdenied ht hr
    · refine hdenied ht ?_
      rw [event_pins _ τ (ps := [.control, .link])]
      · exact hr
      · intro u
        split
        · exact startSurvey_same u
        · exact .refl _ u
  | carrierLoss τ =>
    change execCarrierLoss τ s = _ at ht
    unfold execCarrierLoss at ht
    split at ht
    · refine hdenied ht ?_
      rw [event_pins _ τ loseCarrier_same]
      exact hr
    · exact hdenied ht hr
  | controlTxComplete τ =>
    change execControlTxComplete τ s = _ at ht
    unfold execControlTxComplete at ht
    rw [hr, if_neg Bool.false_ne_true] at ht
    split at ht
    · exact hdenied ht hr
    · split at ht
      · exact hdenied ht (deviceReset_pins s)
      · exact hdenied ht hr
  | deviceResetTakesEffect =>
    change execDeviceResetTakesEffect s = _ at ht
    unfold execDeviceResetTakesEffect at ht
    split at ht
    · exact hdenied ht (deviceReset_pins s)
    · exact hdenied ht hr
  | _ =>
    obtain ⟨u, hu, hsame⟩ := exec_same _ s
    exact hdenied (hu.symm.trans ht)
      ((congrArg Pins.reset (hsame .pins (by dsimp only [footprint]; decide))).trans hr)

/-! ### The pin is held -/

section
variable {s : State} (h : ResetValues s)
include h

theorem ResetValues.withPins (q : Pins) : ResetValues { s with pins := q } := { h with }

theorem ResetValues.withPending (l : List Instr) : ResetValues { s with pending := l } := { h with }

/-- What stands on the matrix line is not of the reset values. -/
theorem ResetValues.withMatrixLine (x : Option MatrixMsg) :
    ResetValues { s with link := { s.link with line := x } } := { h with }

theorem ResetValues.withControlLine (x : Option Outbound) :
    ResetValues { s with control := { s.control with line := x } } :=
  { h with control := congrArg (fun c : Control => { c with line := x }) h.control }

theorem ResetValues.withRecorderLine (x : Option RecCommand) :
    ResetValues { s with recorder := { s.recorder with line := x } } := { h with }

theorem ResetValues.withWallLine (w : WallNo) (l : List WallRecord) :
    ResetValues (s.setWall w { s.wall w with line := l }) :=
  { h with
    walls := fun v => by
      rw [State.setWall_wall]
      split
      · next hv => exact hv ▸ h.walls v
      · exact h.walls v
    tiles := fun v i => by
      rw [State.tile_eq, State.setWall_wall]
      split
      · next hv => exact hv ▸ h.tiles v i
      · exact h.tiles v i }

theorem ResetValues.withRaw (i : InputNo) (level : Bool) :
    ResetValues (s.setTrig i { s.trig i with raw := level }) :=
  { h with
    triggers := fun j => by
      rw [State.setTrig_trig]
      split
      · rw [h.triggers i]
      · exact h.triggers j }

/-! Nothing waits behind what stands on a line. -/

theorem ResetValues.control_sent :
    Control.begin { s.control with line := none } = { s.control with line := none } := by
  rw [h.control]; rfl

theorem ResetValues.link_sent : Link.begin { s.link with line := none } = { s.link with line := none } := by
  obtain ⟨-, -, -, hqueue, -⟩ := h.link
  simp [Link.begin, hqueue]

theorem ResetValues.recorder_sent :
    Recorder.begin { s.recorder with line := none } = { s.recorder with line := none } := by
  simp [Recorder.begin, h.line]

end

theorem event_held {s : State} (hr : s.pins.reset = true) (τ : Nat) (f : State → State) :
    s.event τ f = s := if_pos hr

theorem canServe_held {s : State} (hr : s.pins.reset = true) : s.canServe = false := by
  rw [State.canServe, hr]; rfl

/-- A held part sends what stands on its lines, and follows its pins; nothing else happens to it. -/
theorem ResetValues.exec {c : Instr} {s t : State} (h : ResetValues s) (hr : s.pins.reset = true)
    (ht : exec c s = .next t) (hheld : t.pins.reset = true) : ResetValues t := by
  cases hc : atTheLines c with
  | false =>
    obtain hs | ⟨τ, f, hs⟩ | ⟨τ, mine, act, hs⟩ := exec_shape hc s
    · exact next_keeps (hs.symm.trans ht) h
    · rw [event_held hr] at hs
      exact next_keeps (hs.symm.trans ht) h
    · rw [serveIf_refuses (canServe_held hr)] at hs
      exact next_keeps (hs.symm.trans ht) h
  | true =>
    cases c with
    | resetPinAssert =>
      change execResetPinAssert s = _ at ht
      rw [execResetPinAssert, hr] at ht
      exact next_keeps ht h
    | resetPinRelease =>
      change execResetPinRelease s = _ at ht
      rw [execResetPinRelease, hr] at ht
      rw [← Host.Outcome.next.inj ht, releaseReset_pins] at hheld
      exact nomatch hheld
    | refEdge τ g order =>
      change Host.Outcome.next _ = _ at ht
      have hexpire : s.expireBefore τ g order = s := by
        unfold State.expireBefore
        dsimp only
        split
        · exact event_held hr _ _
        · rfl
      rw [hexpire, event_held hr] at ht
      exact next_keeps ht h
    | carrierGain τ =>
      change execCarrierGain τ s = _ at ht
      unfold execCarrierGain at ht
      split at ht
      · exact next_keeps ht h
      · refine next_keeps ht ?_
        rw [event_held (s := { s with pins := { s.pins with carrier := true } }) hr]
        exact h.withPins _
    | carrierLoss τ =>
      change execCarrierLoss τ s = _ at ht
      unfold execCarrierLoss at ht
      split at ht
      · refine next_keeps ht ?_
        rw [event_held (s := { s with
          pins := { s.pins with carrier := false }, link := { s.link with line := none } }) hr]
        exact (h.withMatrixLine none).withPins _
      · exact next_keeps ht h
    | matrixTxComplete τ =>
      change execMatrixTxComplete τ s = _ at ht
      rw [execMatrixTxComplete, hr, if_pos rfl] at ht
      split at ht
      · exact next_keeps ht h
      · refine next_keeps ht ?_
        dsimp only
        rw [h.link_sent]
        exact h.withMatrixLine none
    | triggerRawChange τ i level =>
      change execTriggerRawChange τ i level s = _ at ht
      rw [execTriggerRawChange, hr, if_pos rfl] at ht
      split at ht
      · exact next_keeps ht h
      · exact next_keeps ht (h.withRaw i level)
    | wallRecordTxComplete τ w =>
      change execWallRecordTxComplete τ w s = _ at ht
      rw [execWallRecordTxComplete, hr, if_pos rfl] at ht
      split at ht
      · exact next_keeps ht h
      · exact next_keeps ht (h.withWallLine w _)
    | recorderTxComplete τ =>
      change execRecorderTxComplete τ s = _ at ht
      rw [execRecorderTxComplete, hr, if_pos rfl] at ht
      split at ht
      · exact next_keeps ht h
      · refine next_keeps ht ?_
        dsimp only
        rw [h.recorder_sent]
        exact h.withRecorderLine none
    | controlTxComplete τ =>
      change execControlTxComplete τ s = _ at ht
      rw [execControlTxComplete, hr, if_pos rfl] at ht
      split at ht
      · exact next_keeps ht h
      · refine next_keeps ht ?_
        rw [State.controlSent, h.control_sent]
        exact h.withControlLine none
    | deviceResetTakesEffect =>
      change execDeviceResetTakesEffect s = _ at ht
      rw [execDeviceResetTakesEffect, hr] at ht
      exact next_keeps ht h
    | _ => exact nomatch hc

/-- Settles O6: the pin's assertion gives the reset values, and a held part keeps them. -/
theorem everyStepKeepsThePartHeldAtReset : Obligations.EveryStepKeepsThePartHeldAtReset := by
  unfold Obligations.EveryStepKeepsThePartHeldAtReset
  intro s t hs ht hheld
  unfold step at ht
  split at ht
  · exact Host.Outcome.next.inj ht ▸ hs (Host.Outcome.next.inj ht ▸ hheld)
  · next c cs _ =>
    cases hr : s.pins.reset with
    | false =>
      rw [exec_asserts (s := { s with pending := cs }) hr ht hheld]
      exact assertReset_resetValues _
    | true => exact ((hs hr).withPending cs).exec hr ht hheld

end Sys2Proof.Machine
end

section
/-! O17: every command keeps the group records lawful (R26, R27, R31, R35, R40). -/

namespace Sys2Proof.Machine

/-! ### The filter of P (R35, R40, R56) -/

/-- The filter's result lies in every range that holds its value and its measurement. -/
theorem filterStep_between {k x m lo hi : Nat} (hx : lo ≤ x ∧ x ≤ hi) (hm : lo ≤ m ∧ m ≤ hi) :
    lo ≤ filterStep k x m ∧ filterStep k x m ≤ hi := by
  have hpos : (0 : Int) < (2 ^ k : Nat) := by exact_mod_cast Nat.two_pow_pos k
  unfold filterStep
  rcases le_total x m with h | h
  · have hlow : (0 : Int) ≤ ((m : Int) - x) / (2 ^ k : Nat) := Int.ediv_nonneg (by omega) hpos.le
    have hhigh : ((m : Int) - x) / (2 ^ k : Nat) ≤ m - x := Int.ediv_le_self _ (by omega)
    omega
  · have hhigh : ((m : Int) - x) / (2 ^ k : Nat) ≤ 0 := Int.ediv_nonpos_of_nonpos_of_neg (by omega) hpos
    have hlow : (m : Int) - x ≤ ((m : Int) - x) / (2 ^ k : Nat) := by
      rw [Int.le_ediv_iff_mul_le hpos]
      nlinarith
    omega

/-- P after an on-time edge, whatever the time between the boundaries. -/
theorem periodFilter_between (q : Geometry) {p : Nat}
    (hp : q.l * q.h / 2 ≤ p ∧ p ≤ 2 * (q.l * q.h)) (m : Nat) :
    q.l * q.h / 2 ≤ periodFilter q p m ∧ periodFilter q p m ≤ 2 * (q.l * q.h) := by
  refine filterStep_between hp ?_
  rw [Geometry.frameTicks, clamp]
  omega

/-! ### The geometry of an order (R31) -/

theorem geometry?_inRange {h l sw t k : Nat} {q : Geometry} (hq : geometry? h l sw t k = some q) :
    q.InRange := by
  unfold geometry? at hq
  split at hq
  · next hr =>
    obtain ⟨hh, hh', hl, hl', hs⟩ := hr
    obtain rfl := Option.some.inj hq
    have hframe : 20 * 100 ≤ l * h := Nat.mul_le_mul hl hh
    exact ⟨⟨hh, hh'⟩, ⟨hl, hl'⟩, by dsimp only; omega, by dsimp only [clamp]; omega,
      by dsimp only [clamp]; omega⟩
  · cases hq

/-! ### One group record -/

/-- P lies from floor(F/2) to 2F of a geometry (R40). -/
def Geometry.allows (q : Geometry) (p : Nat) : Prop := q.l * q.h / 2 ≤ p ∧ p ≤ 2 * (q.l * q.h)

theorem Geometry.allows_frame (q : Geometry) : q.allows (q.l * q.h) := by
  unfold Geometry.allows; omega

section
variable {r : GroupRec}

/-- A group outside DISABLED is lawful by its geometries and its P. -/
theorem GroupRec.lawful_of_active {q : Geometry} (hst : r.state ≠ .disabled) (hl : r.last.isSome)
    (ha : r.active = some q) (hq : q.InRange) (hp : q.allows r.period)
    (hs : ∀ x, r.staged = some x → x.InRange) : r.Lawful :=
  ⟨fun h => absurd h hst, fun _ => ⟨hl, q, ha, hq, hp.1, hp.2⟩, hs⟩

theorem GroupRec.Lawful.active (h : r.Lawful) (hst : r.state ≠ .disabled) :
    ∃ q, r.active = some q ∧ q.InRange ∧ q.allows r.period := by
  obtain ⟨-, q, ha, hq, hlow, hhigh⟩ := h.enabled hst
  exact ⟨q, ha, hq, hlow, hhigh⟩

/-- A boundary leaves a record lawful when its kind gives it a P that the active geometry allows. -/
theorem GroupRec.open_lawful {time p : Nat} {state : RefState} {en : Bool} {q : Geometry}
    (hst : state ≠ .disabled) (ha : r.active = some q) (hq : q.InRange) (hp : q.allows p)
    (hs : ∀ x, r.staged = some x → x.InRange) : (r.open time state p en).Lawful := by
  cases hstaged : r.staged with
  | none =>
    exact lawful_of_active hst rfl (by simp [GroupRec.open, hstaged, ha]) hq
      (by simpa [GroupRec.open, hstaged] using hp) nofun
  | some x =>
    exact lawful_of_active (q := x) hst rfl (by simp [GroupRec.open, hstaged]) (hs x hstaged)
      (by simpa [GroupRec.open, hstaged, Geometry.frameTicks] using x.allows_frame) nofun

theorem GroupRec.open_active {time p : Nat} {state : RefState} {en : Bool} (ha : r.active ≠ none) :
    (r.open time state p en).active ≠ none := by
  unfold GroupRec.open
  cases r.staged <;> simp [ha]

end

/-! ### The records of the part -/

/-- Every group record is lawful. -/
def GroupsLawful (s : State) : Prop := ∀ g, (s.grp g).Lawful

theorem GroupsLawful.of_same {ps : List Part} {s t : State} (hs : GroupsLawful s) (h : SameBut ps s t)
    (hp : Part.groups ∉ ps := by decide) : GroupsLawful t := fun g => grp_of_same h hp g ▸ hs g

theorem groupsLawful_of_reset {s : State} (h : s.groups = State.reset.groups) : GroupsLawful s := fun g => by
  have hg : s.grp g = State.reset.grp g := by rw [State.grp, h]; rfl
  exact hg ▸ reset_withinLimits.groups g

theorem GroupsLawful.setGrp {s : State} (hs : GroupsLawful s) {g : Group} {r : GroupRec} (hr : r.Lawful) :
    GroupsLawful (s.setGrp g r) := fun x => by
  rw [State.setGrp_grp]
  split
  · exact hr
  · exact hs x

/-- The group records after a boundary: that of its group is opened, whatever the followers do. -/
theorem groupsLawful_boundary {s : State} {g : Group} {time p : Nat} {state : RefState} {en : Bool}
    {q : Geometry} (hs : ∀ x, x ≠ g → (s.grp x).Lawful) (hst : state ≠ .disabled)
    (ha : (s.grp g).active = some q) (hq : q.InRange) (hp : q.allows p)
    (hstaged : ∀ x, (s.grp g).staged = some x → x.InRange) (k : Option RefKind) (order : FollowerOrder) :
    GroupsLawful (s.boundary g time state p en k order) := by
  have hopen := GroupRec.open_lawful (time := time) (en := en) hst ha hq hp hstaged
  have hset : GroupsLawful (s.setGrp g ((s.grp g).open time state p en)) := fun x => by
    rw [State.setGrp_grp]
    split
    · exact hopen
    · next hx => exact hs x hx
  unfold State.boundary
  dsimp only
  split
  · next hnone => exact absurd hnone (GroupRec.open_active (by simp [ha]))
  · exact (hset.of_same (raiseRef_same _ g k)).of_same (handOn_same _ _ order)

namespace GroupsLawful

variable {s : State} (hs : GroupsLawful s)
include hs

theorem clock (τ : Nat) : GroupsLawful (s.clock τ) := hs.of_same (clock_same s τ)

/-- A boundary of a group that is not DISABLED. -/
theorem boundary {g : Group} {p : Nat} {state : RefState} (hst : state ≠ .disabled)
    (hr : (s.grp g).state ≠ .disabled) (hp : ∀ q, (s.grp g).active = some q → q.allows (s.grp g).period →
      q.allows p) (time : Nat) (en : Bool) (k : Option RefKind) (order : FollowerOrder) :
    GroupsLawful (s.boundary g time state p en k order) := by
  obtain ⟨q, ha, hq, hperiod⟩ := (hs g).active hr
  exact groupsLawful_boundary (fun x _ => hs x) hst ha hq (hp q ha hperiod) (hs g).staged k order

theorem expireTolerance {g : Group} (hr : (s.grp g).state ≠ .disabled) (order : FollowerOrder) :
    GroupsLawful (s.expireTolerance g order) :=
  (hs.clock _).boundary (state := .freewheel) (by decide) hr (fun _ _ h => h) _ _ _ order

theorem freewheel {g : Group} (hr : (s.grp g).state ≠ .disabled) (order : FollowerOrder) :
    GroupsLawful (s.freewheel g order) :=
  (hs.clock _).boundary (state := .freewheel) (by decide) hr (fun _ _ h => h) _ _ _ order

/-- An edge keeps P, sets it to F, or filters it. -/
theorem edge (g : Group) (order : FollowerOrder) : GroupsLawful (s.edge g order) := by
  unfold State.edge State.edgeLocked State.recapture
  dsimp only
  split
  · exact hs
  · next hst =>
    have hr : (s.grp g).state ≠ .disabled := by simp [hst]
    split
    · exact hs.boundary (state := .locked) (by decide) hr (fun q ha _ => by
        rw [GroupRec.frameTicks_of_active ha]; exact q.allows_frame) _ _ _ order
    · exact hs.boundary (state := .locked) (by decide) hr (fun q ha hp => by
        rw [GroupRec.filtered, ha]; exact periodFilter_between q hp _) _ _ _ order
  · next hst =>
    have hr : (s.grp g).state ≠ .disabled := by simp [hst]
    split
    · exact hs.boundary (state := .locked) (by decide) hr (fun _ _ h => h) _ _ _ order
    · obtain ⟨hlast, q, ha, hq, hlow, hhigh⟩ := (hs g).enabled hr
      have hlocked : GroupRec.Lawful { s.grp g with state := .locked } :=
        GroupRec.lawful_of_active nofun hlast ha hq ⟨hlow, hhigh⟩ (hs g).staged
      exact (hs.setGrp hlocked).of_same (raiseRef_same _ g _)

/-- A DISABLED group is enabled with the geometry of the order; another has it staged. -/
theorem serveRefSet (order : FollowerOrder) (o : Order) :
    GroupsLawful (Machine.serveRefSet order o s).state := by
  unfold Machine.serveRefSet
  split
  · next g q _ hq =>
    have hrange := geometry?_inRange hq
    split
    · refine groupsLawful_boundary (q := q) (state := .freewheel) (fun x hx => ?_) (by decide) ?_ hrange
        q.allows_frame ?_ _ order
      · rw [State.setGrp_grp, if_neg hx]
        exact hs x
      · rw [State.setGrp_grp_self]
      · rw [State.setGrp_grp_self]
        exact nofun
    · next hst =>
      obtain ⟨hlast, a, ha, har, hlow, hhigh⟩ := (hs g).enabled hst
      exact hs.setGrp (GroupRec.lawful_of_active hst hlast ha har ⟨hlow, hhigh⟩
        fun x hx => Option.some.inj hx ▸ hrange)
  · exact hs

theorem event {f : State → State} (hf : ∀ {u : State}, (∀ g, u.grp g = s.grp g) → GroupsLawful u →
    GroupsLawful (f u)) (τ : Nat) : GroupsLawful (s.event τ f) := by
  unfold State.event
  split
  · exact hs
  · have hdone := hf (u := s.clock τ) (fun _ => rfl) (hs.clock τ)
    exact hdone.of_same (flushHigh_same _)

theorem serve {act : Order → State → Answer}
    (ha : ∀ {u : State} o, GroupsLawful u → GroupsLawful (act o u).state) (τ : Nat) (code : Byte) :
    GroupsLawful (s.serve τ code act) := by
  unfold State.serve State.serveIf
  split
  · split
    · exact hs
    · next o _ _ =>
      split
      · exact of_same (ifFormed_keeps ha o (of_same (hs.clock τ) (beginServing_same _ o)))
          (finishServing_same _ _ _ _)
      · exact hs
  · exact hs

theorem expireBefore (τ : Nat) (g : Group) (order : FollowerOrder) :
    GroupsLawful (s.expireBefore τ g order) := by
  unfold State.expireBefore
  dsimp only
  split
  · next h =>
    exact hs.event (fun hg hu => hu.expireTolerance (by rw [hg, h.1]; exact nofun) order) _
  · exact hs

/-- Every command keeps the group records lawful. -/
theorem exec {c : Instr} {t : State} (ht : Machine.exec c s = .next t) : GroupsLawful t := by
  have hreleased {u : State} (hu : GroupsLawful u) : GroupsLawful u.releaseReset := fun g => by
    rw [State.grp, releaseReset_groups]
    exact hu g
  have hreset : GroupsLawful s.deviceReset := hreleased (groupsLawful_of_reset rfl)
  cases c with
  | resetPinAssert =>
    change execResetPinAssert s = _ at ht
    unfold execResetPinAssert at ht
    split at ht
    · exact next_keeps ht hs
    · exact next_keeps ht (groupsLawful_of_reset rfl)
  | resetPinRelease =>
    change execResetPinRelease s = _ at ht
    unfold execResetPinRelease at ht
    split at ht
    · exact next_keeps ht (hreleased hs)
    · exact next_keeps ht hs
  | controlTxComplete τ =>
    change execControlTxComplete τ s = _ at ht
    unfold execControlTxComplete at ht
    split at ht
    · exact next_keeps ht hs
    · split at ht
      · exact next_keeps ht (hs.of_same (begin_same s))
      · split at ht
        · exact next_keeps ht hreset
        · exact next_keeps ht ((hs.clock τ).of_same (begin_same _))
  | deviceResetTakesEffect =>
    change execDeviceResetTakesEffect s = _ at ht
    unfold execDeviceResetTakesEffect at ht
    split at ht
    · exact next_keeps ht hreset
    · exact next_keeps ht hs
  | refSet τ order => exact next_keeps ht (hs.serve (fun o hu => hu.serveRefSet order o) τ _)
  | refEdge τ g order =>
    exact next_keeps ht ((hs.expireBefore τ g order).event (fun _ hu => hu.edge g order) τ)
  | toleranceExpiry g order =>
    change execToleranceExpiry g order s = _ at ht
    unfold execToleranceExpiry at ht
    split at ht
    · next h =>
      exact next_keeps ht (hs.event (fun hg hu => hu.expireTolerance (by rw [hg, h]; exact nofun) order) _)
    · exact next_keeps ht hs
  | freewheelBoundary g order =>
    change execFreewheelBoundary g order s = _ at ht
    unfold execFreewheelBoundary at ht
    split at ht
    · next h =>
      exact next_keeps ht (hs.event (fun hg hu => hu.freewheel (by rw [hg, h]; exact nofun) order) _)
    · exact next_keeps ht hs
  | _ =>
    obtain ⟨u, hu, hsame⟩ := exec_same _ s
    exact next_keeps (hu.symm.trans ht) (hs.of_same hsame (by dsimp only [footprint]; decide))

end GroupsLawful

end Sys2Proof.Machine
end

section
/-! O17: the limits of the interface's lists (R152, R156, R157, R159), and of the mark lists and the queue of
the recorder unit (R137, R146), within an event. -/

namespace Sys2Proof.Machine

/-! ### The interface -/

/-- The order buffer, the reply list with a room of its own, and the notice queue are within their
limits. -/
structure Control.Within (room : Nat) (c : Control) : Prop where
  orders  : c.orders.length ≤ 8
  replies : c.replies.length ≤ room
  notices : c.notices.length ≤ 32

namespace Control.Within

variable {room : Nat} {c : Control} (hc : c.Within room)
include hc

theorem begin : c.begin.Within room := by
  obtain ⟨ho, hr, hn⟩ := hc
  obtain ⟨h, -⟩ | ⟨r, rs, -, hrs, h⟩ | ⟨n, ns, -, -, hns, h⟩ := begin_cases c
  · rw [h]
    exact ⟨ho, hr, hn⟩
  · rw [h]
    rw [hrs, List.length_cons] at hr
    exact ⟨ho, by dsimp only; omega, hn⟩
  · rw [h]
    rw [hns, List.length_cons] at hn
    exact ⟨ho, hr, by dsimp only; omega⟩

theorem raise (n : Notice) : (c.raise n).Within room := by
  unfold Control.raise
  split
  · split
    · next hroom =>
      refine begin ⟨hc.orders, hc.replies, ?_⟩
      rw [List.length_append]
      exact hroom
    · exact ⟨hc.orders, hc.replies, hc.notices⟩
  · exact hc

/-- The room for a reply is there when the list is short of it by one. -/
theorem pushReply (r : Reply) : (c.pushReply r).Within (room + 1) :=
  begin ⟨hc.orders, by simpa using hc.replies, hc.notices⟩

end Control.Within

/-! ### The recorder line (R137) -/

/-- The command is a HALT. -/
def RecOp.Halts (op : RecOp) : Prop := ∃ clip, op = .halt clip

/-- What a merge leaves in the queue is a HALT when the command issued is one. -/
theorem mergeOp_halts {old op new : RecOp} {g : Group} {f : FrameNo} (h : mergeOp old op g f = some new) :
    new.Halts ↔ op.Halts := by
  cases old <;> cases op <;> simp [mergeOp] at h <;> subst h <;> simp [RecOp.Halts]

theorem Recorder.begin_queue (r : Recorder) : r.begin.queue.Sublist r.queue := by
  unfold Recorder.begin
  split
  · next hq => rw [hq]; exact List.sublist_cons_self _ _
  · exact List.Sublist.refl _

section
variable (r : Recorder) (c : ChannelNo) (op : RecOp) (g : Group) (f : FrameNo)

theorem not_queuedFor {q : List RecCommand} {c : ChannelNo} (h : queuedFor q c = none) {x : RecCommand}
    (hx : x ∈ q) : x.channel ≠ c := by
  rw [queuedFor, Option.map_eq_none_iff, List.find?_eq_none] at h
  simpa using h x hx

/-- What stands in the queue after a command is issued: the commands of other channels as they were, and
of its channel one that is a HALT when the command issued is. -/
theorem Recorder.mem_issue {x : RecCommand} (hx : x ∈ (r.issue c op g f).queue) :
    x.channel = c ∧ (x.op.Halts ↔ op.Halts) ∨ x.channel ≠ c ∧ x ∈ r.queue := by
  cases hq : queuedFor r.queue c with
  | none =>
    rw [Recorder.issue_appends hq] at hx
    rcases List.mem_append.1 ((Recorder.begin_queue _).subset hx) with hx | hx
    · exact .inr ⟨not_queuedFor hq hx, hx⟩
    · obtain rfl := List.mem_singleton.1 hx
      exact .inl ⟨rfl, Iff.rfl⟩
  | some old =>
    cases hm : mergeOp old op g f with
    | none =>
      rw [Recorder.issue_removes hq hm] at hx
      obtain ⟨hx, hne⟩ := List.mem_filter.1 hx
      exact .inr ⟨by simpa using hne, hx⟩
    | some new =>
      rw [Recorder.issue_merges hq hm] at hx
      obtain ⟨y, hy, rfl⟩ := List.mem_map.1 hx
      split
      · exact .inl ⟨rfl, mergeOp_halts hm⟩
      · next hne => exact .inr ⟨hne, hy⟩

theorem Recorder.issue_nodup (h : (r.queue.map (·.channel)).Nodup) :
    ((r.issue c op g f).queue.map (·.channel)).Nodup := by
  cases hq : queuedFor r.queue c with
  | none =>
    rw [Recorder.issue_appends hq]
    refine List.Nodup.sublist ((Recorder.begin_queue _).map _) ?_
    rw [List.map_append, List.map_singleton, List.nodup_append]
    refine ⟨h, List.nodup_singleton _, fun b hb a ha => ?_⟩
    obtain ⟨x, hx, rfl⟩ := List.mem_map.1 hb
    obtain rfl := List.mem_singleton.1 ha
    exact not_queuedFor hq hx
  | some old =>
    cases hm : mergeOp old op g f with
    | none =>
      rw [Recorder.issue_removes hq hm]
      exact h.sublist (List.filter_sublist.map _)
    | some new =>
      rw [Recorder.issue_merges hq hm]
      have hsame : (r.inPlace c new).queue.map (·.channel) = r.queue.map (·.channel) := by
        rw [Recorder.inPlace, List.map_map]
        refine List.map_congr_left fun x _ => ?_
        by_cases hx : x.channel = c <;> simp [hx]
      rwa [hsame]

end

/-- The mark lists are within their limit, a channel has one command in the queue, and that of a channel of
`P` is a HALT exactly when the channel is IDLE. -/
structure Recorder.Within (P : ChannelNo → Prop) (r : Recorder) : Prop where
  marks    : ∀ c : ChannelNo, (r.channels[c]).marks.length ≤ 32
  commands : (r.queue.map (·.channel)).Nodup
  fit      : ∀ x ∈ r.queue, P x.channel → (x.op.Halts ↔ (r.channels[x.channel]).state = .idle)

theorem Recorder.Within.begin {P : ChannelNo → Prop} {r : Recorder} (h : r.Within P) : r.begin.Within P := by
  have hchannels := (Recorder.begin_keeps r).1
  refine ⟨fun c => ?_, h.commands.sublist ((Recorder.begin_queue r).map _), fun x hx => ?_⟩
  · rw [hchannels]
    exact h.marks c
  · rw [hchannels]
    exact h.fit x ((Recorder.begin_queue r).subset hx)

theorem Channel.log_marks {r : Channel} (h : r.marks.length ≤ 32) (m : Mark) :
    (r.log m).marks.length ≤ 32 := by
  unfold Channel.log
  split
  · next hlt =>
    rw [List.length_append]
    exact hlt
  · rw [List.length_append, List.length_tail, List.length_singleton]
    omega

/-! ### The part -/

/-- The interface and the recorder unit are within their limits. -/
structure Within (room : Nat) (P : ChannelNo → Prop) (s : State) : Prop where
  control  : s.control.Within room
  recorder : s.recorder.Within P

/-- The part is neither the interface nor the recorder unit. -/
def Part.limitless : Part → Bool
  | .control | .recorder => false
  | _ => true

theorem within_assertReset (room : Nat) (P : ChannelNo → Prop) (s : State) : Within room P s.assertReset where
  control := ⟨Nat.zero_le _, Nat.zero_le _, Nat.zero_le _⟩
  recorder :=
    { marks := fun c => by
        have hmarks : (s.assertReset.chan c).marks.length ≤ 32 := by
          rw [assertReset_chan]; exact Nat.zero_le _
        exact hmarks
      commands := List.nodup_nil
      fit := nofun }

namespace Within

variable {room : Nat} {P : ChannelNo → Prop} {s : State} (hs : Within room P s)
include hs

theorem of_parts {t : State} (hc : t.control = s.control) (hr : t.recorder = s.recorder) :
    Within room P t := ⟨hc ▸ hs.control, hr ▸ hs.recorder⟩

/-- What writes neither the interface nor the recorder unit. -/
theorem of_same {ps : List Part} {t : State} (h : SameBut ps s t) (hp : ps.all Part.limitless = true) :
    Within room P t :=
  hs.of_parts (h .control fun hm => Bool.false_ne_true (List.all_eq_true.1 hp .control hm))
    (h .recorder fun hm => Bool.false_ne_true (List.all_eq_true.1 hp .recorder hm))

theorem mono {Q : ChannelNo → Prop} (h : ∀ b, Q b → P b) : Within room Q s :=
  ⟨hs.control, hs.recorder.marks, hs.recorder.commands, fun x hx hq => hs.recorder.fit x hx (h _ hq)⟩

/-! ### The interface -/

theorem withControl {n : Nat} {c : Control} (hc : c.Within n) : Within n P { s with control := c } :=
  ⟨hc, hs.recorder⟩

theorem raise (n : Notice) : Within room P (s.raise n) := hs.withControl (hs.control.raise n)

/-! ### The recorder unit -/

theorem withHigh (l : List Notice) : Within room P { s with recorder := { s.recorder with high := l } } :=
  ⟨hs.control, hs.recorder.marks, hs.recorder.commands, hs.recorder.fit⟩

theorem flushHigh : Within room P s.flushHigh :=
  foldl_keeps (fun n hu => hu.raise n) _ (hs.withHigh [])

/-- The command queued for a channel that fits. -/
theorem fit_of_channel {c : ChannelNo} (hc : P c) {x : RecCommand} (hx : x ∈ s.recorder.queue)
    (hxc : x.channel = c) : x.op.Halts ↔ (s.chan c).state = .idle := by
  subst hxc
  exact hs.recorder.fit x hx hc

omit hs in
/-- A channel is written; the command queued for it fits what it is now. -/
theorem setChan_of_fit {c : ChannelNo} {r : Channel} (hs : Within room (fun b => P b ∧ b ≠ c) s)
    (hm : r.marks.length ≤ 32)
    (hfit : P c → ∀ x ∈ s.recorder.queue, x.channel = c → (x.op.Halts ↔ r.state = .idle)) :
    Within room P (s.setChan c r) := by
  refine ⟨hs.control, fun b => ?_, hs.recorder.commands, fun x hx hp => ?_⟩
  · change ((s.setChan c r).chan b).marks.length ≤ 32
    rw [State.setChan_chan]
    split
    · exact hm
    · exact hs.recorder.marks b
  · change _ ↔ ((s.setChan c r).chan x.channel).state = .idle
    rw [State.setChan_chan]
    split
    · next hxc => exact hfit (hxc ▸ hp) x hx hxc
    · next hxc => exact hs.recorder.fit x hx ⟨hp, hxc⟩

/-- A channel is written that is IDLE when it was. -/
theorem setChan {c : ChannelNo} {r : Channel} (hm : r.marks.length ≤ 32)
    (hst : r.state = (s.chan c).state) : Within room P (s.setChan c r) :=
  setChan_of_fit (hs.mono fun _ h => h.1) hm fun hc x hx hxc => by
    rw [hst]
    exact hs.fit_of_channel hc hx hxc

/-- A channel is written whose command is not to be judged yet. -/
theorem setChan_unjudged {c : ChannelNo} {r : Channel} (hm : r.marks.length ≤ 32) :
    Within room (fun b => P b ∧ b ≠ c) (s.setChan c r) :=
  setChan_of_fit (hs.mono fun _ h => h.1.1) hm fun h => absurd rfl h.2

omit hs in
theorem issue {c : ChannelNo} {op : RecOp} (hs : Within room (fun b => P b ∧ b ≠ c) s)
    (hc : P c → (op.Halts ↔ (s.chan c).state = .idle)) (g : Group) (f : FrameNo) :
    Within room P (s.issue c op g f) := by
  have hchan (b : ChannelNo) : (s.recorder.issue c op g f).channels[b] = s.chan b := issue_chan s c op g f b
  refine ⟨hs.control, fun b => ?_, Recorder.issue_nodup _ _ _ _ _ hs.recorder.commands, fun x hx hp => ?_⟩
  · change ((s.recorder.issue c op g f).channels[b]).marks.length ≤ 32
    rw [hchan]
    exact hs.recorder.marks b
  · change _ ↔ ((s.recorder.issue c op g f).channels[x.channel]).state = .idle
    rw [hchan]
    obtain ⟨hxc, hhalts⟩ | ⟨hxc, hmem⟩ := Recorder.mem_issue _ _ _ _ _ hx
    · rw [hxc] at hp ⊢
      exact hhalts.trans (hc hp)
    · exact hs.recorder.fit x hmem ⟨hp, hxc⟩

omit hs in
/-- A HALT is issued for a channel that is IDLE. -/
theorem issueHalt {c : ChannelNo} (hs : Within room (fun b => P b ∧ b ≠ c) s)
    (hc : P c → (s.chan c).state = .idle) : Within room P (s.issueHalt c) :=
  issue hs (fun hp => iff_of_true ⟨_, rfl⟩ (hc hp)) _ _

theorem logMark (c : ChannelNo) (m : Mark) : Within room P (s.logMark c m) := by
  have hlogged := hs.setChan (Channel.log_marks (hs.recorder.marks c) m) (Channel.log_state (s.chan c) m)
  unfold State.logMark
  dsimp only
  split
  · exact hlogged.withHigh _
  · exact hlogged

theorem tallyChannel (c : ChannelNo) (up : Bool) : Within room P (s.tallyChannel c up) :=
  hs.of_same (tallyChannel_same s c up) rfl

theorem raiseRec (c : ChannelNo) (before : RecState) (k : RecCause) :
    Within room P (s.raiseRec c before k) := hs.raise _

omit hs in
/-- A channel enters RECORDING with no HALT queued for it. -/
theorem enterRecording {c : ChannelNo} (hs : Within room (fun b => P b ∧ b ≠ c) s)
    (hc : P c → ∀ x ∈ s.recorder.queue, x.channel = c → ¬ x.op.Halts) (k : RecCause) :
    Within room P (s.enterRecording c k) := by
  have hentered : Within room P (s.setChan c { s.chan c with state := .recording, cue := none }) :=
    setChan_of_fit hs (hs.recorder.marks c) fun hp x hx hxc => iff_of_false (hc hp x hx hxc) nofun
  exact ((hentered.tallyChannel c true).logMark c _).raiseRec c _ k

/-- A channel that is not IDLE has no HALT queued for it. -/
theorem no_halt {c : ChannelNo} (hst : (s.chan c).state ≠ .idle) (hp : P c) (x : RecCommand)
    (hx : x ∈ s.recorder.queue) (hxc : x.channel = c) : ¬ x.op.Halts :=
  fun h => hst ((hs.fit_of_channel hp hx hxc).1 h)

/-- The ROLL of a start stands in the queue, or on the line, before the channel leaves IDLE. -/
theorem recStart (c : ChannelNo) (k : RecCause) : Within room P (s.recStart c k).2 := by
  unfold State.recStart
  dsimp only
  split
  · exact hs
  · split
    · exact hs
    · generalize hu : (s.setChan c { s.chan c with clip := (s.chan c).clip + 1 }).issue c
        (.roll ((s.chan c).clip + 1)) (s.chanGroup c) (s.stamp (s.chanGroup c)) = u
      have hissued : Within room (fun b => P b ∧ b ≠ c) u := by
        have hclip := (hs.setChan (r := { s.chan c with clip := (s.chan c).clip + 1 })
          (hs.recorder.marks c) rfl).mono (Q := fun b => (P b ∧ b ≠ c) ∧ b ≠ c) fun _ h => h.1.1
        exact hu ▸ issue hclip (fun h => absurd rfl h.2) _ _
      have hroll : P c → ∀ x ∈ u.recorder.queue, x.channel = c → ¬ x.op.Halts := by
        rw [← hu]
        intro _ x hx hxc
        obtain ⟨-, hhalts⟩ | ⟨hne, -⟩ := Recorder.mem_issue _ _ _ _ _ hx
        · rw [hhalts]
          exact fun ⟨_, h⟩ => nomatch h
        · exact absurd hxc hne
      split
      · exact enterRecording hissued hroll k
      · have hcues : Within room P
            (u.setChan c { u.chan c with state := .cueing, cue := some (s.chan c).lead }) :=
          setChan_of_fit hissued (hissued.recorder.marks c) fun hp x hx hxc =>
            iff_of_false (hroll hp x hx hxc) nofun
        exact hcues.raiseRec c _ k

theorem recStop (c : ChannelNo) (k : RecCause) : Within room P (s.recStop c k) := by
  unfold State.recStop
  dsimp only
  split
  · exact hs
  · have hidle := hs.setChan_unjudged (c := c) (r := { s.chan c with state := .idle, cue := none })
      (hs.recorder.marks c)
    exact (issueHalt hidle fun _ => by rw [State.setChan_chan_self]).raiseRec c _ k
  · generalize (⟨.stop, s.chanGroup c, s.stamp (s.chanGroup c), (s.chan c).clip,
      some (s.chanSource c), none⟩ : Mark) = m
    have hmarked := hs.logMark c m
    have hidle := (hmarked.setChan_unjudged (c := c) (r := { (s.logMark c m).chan c with state := .idle })
      (hmarked.recorder.marks c)).tallyChannel c false
    refine (issueHalt hidle fun _ => ?_).raiseRec c _ k
    rw [chan_of_same (tallyChannel_same _ c false), State.setChan_chan_self]

theorem splitChannel {c : ChannelNo} (hc : P c → (s.chan c).state ≠ .idle) (g : Group) (f : FrameNo)
    (k : ChangeCause) (old new : Option Source) : Within room P (s.splitChannel g f k old new c) := by
  have hclip := (hs.setChan (c := c) (r := { s.chan c with clip := (s.chan c).clip + 1 })
    (hs.recorder.marks c) rfl).mono (Q := fun b => P b ∧ b ≠ c) fun _ h => h.1
  refine (issue hclip (fun hp => iff_of_false (fun ⟨_, h⟩ => nomatch h) ?_) g f).logMark c _
  rw [State.setChan_chan_self]
  exact hc hp

end Within

end Sys2Proof.Machine
end

section
/-! O17: the recorder unit follows its destinations, and takes, reports and boundaries raise their notices,
within the limits (R10, R28, R50 to R62, R66 to R73, R79 to R84, R141 to R150). -/

namespace Sys2Proof.Machine

/-- A split channel is in the state it was in. -/
theorem splitChannel_state (g : Group) (f : FrameNo) (k : ChangeCause) (old new : Option Source) (s : State)
    (c b : ChannelNo) : ((s.splitChannel g f k old new c).chan b).state = (s.chan b).state := by
  by_cases h : b = c
  · rw [h, splitChannel_chan_self, Channel.log_state]
  · rw [(splitChannel_logsOwn g f k old new).other s c b h]

namespace Within

variable {room : Nat} {P : ChannelNo → Prop} {s : State} (hs : Within room P s)
include hs

/-! ### The recorder unit -/

/-- Channels in RECORDING are split one after the other. -/
theorem foldl_splits {split : State → ChannelNo → State}
    (hsplit : ∀ u c, ∃ g f k old new, split u c = u.splitChannel g f k old new c) {l : List ChannelNo}
    (hl : ∀ c ∈ l, (s.chan c).state = .recording) : Within room P (l.foldl split s) := by
  refine (List.foldlRecOn l split (motive := fun u => Within room P u
    ∧ ∀ b, (u.chan b).state = (s.chan b).state) ⟨hs, fun _ => rfl⟩ fun u ⟨hu, hst⟩ c hc => ?_).1
  obtain ⟨g, f, k, old, new, h⟩ := hsplit u c
  rw [h]
  exact ⟨hu.splitChannel (fun _ => by rw [hst, hl c hc]; exact nofun) g f k old new,
    fun b => (splitChannel_state g f k old new u c b).trans (hst b)⟩

theorem splitRecorders (d : Dest) (k : ChangeCause) (old new : Option Source) :
    Within room P (s.splitRecorders d k old new) :=
  hs.foldl_splits (fun _ _ => ⟨_, _, _, _, _, rfl⟩) fun c hc => by
    rw [recordingOn_eq] at hc
    exact (mem_recordersOf.1 hc).1

theorem splitLost (before : State) : Within room P (s.splitLost before) :=
  hs.foldl_splits (fun _ _ => ⟨_, _, _, _, _, rfl⟩) fun c hc => by
    have hrecords := (mem_select _ _ _).1 (List.mem_filter.1 hc).1
    exact beq_iff_eq.1 hrecords

theorem logSuspect (d : Dest) : Within room P (s.logSuspect d) :=
  foldl_keeps (fun c hu => hu.logMark c _) _ hs

/-- A channel that cues is not IDLE, and no HALT is queued for it. -/
theorem cueBoundary {c : ChannelNo} (h : (s.chan c).state ≠ .idle) : Within room P (s.cueBoundary c) := by
  cases hc : s.cueEnds c with
  | true =>
    rw [cueBoundary_ends hc]
    exact enterRecording (hs.mono fun _ h => h.1) (hs.no_halt h) _
  | false =>
    rw [cueBoundary_lowers hc]
    exact hs.setChan (hs.recorder.marks c) rfl

theorem foldl_cueBoundary {l : List ChannelNo} (hl : l.Nodup) (h : ∀ c ∈ l, (s.chan c).state ≠ .idle) :
    Within room P (l.foldl State.cueBoundary s) := by
  induction l generalizing s with
  | nil => exact hs
  | cons c l ih =>
    obtain ⟨hcl, hl⟩ := List.nodup_cons.1 hl
    refine ih (hs.cueBoundary (h c List.mem_cons_self)) hl fun b hb => ?_
    rw [cueBoundary_chan_of_ne s (ne_of_mem_of_not_mem hb hcl)]
    exact h b (List.mem_cons_of_mem c hb)

theorem recordersAtBoundary (g : Group) : Within room P (s.recordersAtBoundary g) :=
  hs.foldl_cueBoundary (cueing_nodup s g) fun c hc => by rw [(mem_cueing.1 hc).1]; exact nofun

/-- A channel is reset: its HALT is issued when it was not IDLE. -/
theorem resetChannel (c : ChannelNo) : Within room P (s.resetChannel c) := by
  unfold State.resetChannel
  dsimp only
  refine setChan ?_ (Nat.zero_le _) rfl
  split
  · exact hs
  · have hidle := hs.setChan_unjudged (c := c) (r := { s.chan c with state := .idle, cue := none })
      (hs.recorder.marks c)
    refine (issueHalt (c := c) ?_ fun _ => ?_).raiseRec c _ _
    · split
      · exact hidle.of_same (bump_same _ _ _ _) rfl
      · exact hidle
    · split
      · rw [chan_of_same (bump_same _ _ _ _), State.setChan_chan_self]
      · rw [State.setChan_chan_self]

theorem resetRecorders : Within room P s.resetRecorders :=
  (foldl_keeps (fun c hu => hu.resetChannel c) _ hs).of_same
    (SameBut.foldl (fun u x => compareColour_same u (some x)) s.recordedSources _) rfl

/-! ### The source-change event (R9 to R11) -/

theorem writeSource (d : Dest) (x : Option Source) (k : ChangeCause) :
    Within room P (s.writeSource d x k) := by
  unfold State.writeSource
  dsimp only
  split
  · exact hs
  · have hshown := (hs.of_same (setEntry_same s d { s.entry d with source := x }) rfl).of_same
      (sourceShown_same _ d (s.entry d).source x) rfl
    exact hshown.splitRecorders d k _ x

theorem clearSource (d : Dest) : Within room P (s.clearSource d) := hs.of_same (clearSource_same s d) rfl

theorem setSuspect (d : Dest) (v : Bool) : Within room P (s.setSuspect d v) :=
  hs.of_same (setSuspect_same s d v) rfl

/-! ### Takes -/

theorem accountTake (k : SlotNo) (r : TakeResult) (b : Bool) : Within room P (s.accountTake k r b) := by
  unfold State.accountTake
  dsimp only
  split
  · exact (hs.of_same (setSlot_same s k _) rfl).raise _
  · exact hs.of_same (setSlot_same s k _) rfl

theorem reportTake (d : Dest) (ticket : Word16) (tag : Option SlotNo) (r : TakeResult) (b : Bool) :
    Within room P (s.reportTake d ticket tag r b) := by
  unfold State.reportTake
  split
  · exact hs.raise _
  · split
    · exact hs.accountTake _ _ _
    · exact hs

theorem endNext (d : Dest) (r : TakeResult) : Within room P (s.endNext d r) := by
  unfold State.endNext
  split
  · exact hs
  · exact (hs.of_same (setEntry_same s d _) rfl).reportTake _ _ _ _ _

theorem placeHeld (d : Dest) (n : NextTake) (pl : Placement) : Within room P (s.placeHeld d n pl) :=
  hs.of_same (placeHeld_same s d n pl) rfl

theorem promote (d : Dest) : Within room P (s.promote d) := by
  unfold State.promote
  split
  · exact hs
  · split
    · exact (hs.of_same (setEntry_same s d _) rfl).placeHeld d _ _
    · exact hs.endNext d _

theorem endPending (d : Dest) (r : TakeResult) : Within room P (s.endPending d r) := by
  unfold State.endPending
  split
  · exact hs
  · next p _ =>
    have hleft := hs.of_same (setEntry_same s d { s.entry d with pending := none }) rfl
    have hwaits : Within room P (if p.phase = .waiting
        then (s.setEntry d { s.entry d with pending := none }).dropWaiting d
        else s.setEntry d { s.entry d with pending := none }) := by
      split
      · exact hleft.of_same (dropWaiting_same _ d) rfl
      · exact hleft
    have htold := (hwaits.of_same (announceDest_same _ d) rfl).reportTake d p.ticket p.tag r p.deferred
    dsimp only
    split
    · exact htold
    · exact htold.promote d

theorem dispatchDue (ds : List Dest) : Within room P (s.dispatchDue ds) :=
  hs.of_same (dispatchDue_same s ds) rfl

theorem arrive (d : Dest) (n : NextTake) (pl : Placement) : Within room P (s.arrive d n pl).2 := by
  unfold State.arrive
  split
  · exact hs.placeHeld d n pl
  · split
    · exact (hs.endPending d _).placeHeld d n pl
    · exact (hs.endNext d _).of_same (setEntry_same _ d _) rfl

theorem timeOut (d : Dest) : Within room P (s.timeOut d) := by
  have hsuspect := hs.setSuspect d true
  unfold State.timeOut
  split
  · exact hs
  · refine endPending (logSuspect ?_ d) d _
    split
    · exact hsuspect
    · exact hsuspect.of_same (setToken_same _ _ _) rfl

theorem treatTake (b : Boundary) (d : Dest) : Within room P (s.treatTake b d) := by
  have hset (p : Pending) := hs.of_same (setPending_same s d p) rfl
  unfold State.treatTake
  split
  · exact hs
  · split
    · split <;> exact hset _
    · exact hset _
    · split <;> exact hset _
    · split
      · exact hs.timeOut d
      · exact hset _

theorem takesAtBoundary (b : Boundary) : Within room P (s.takesAtBoundary b) := by
  unfold State.takesAtBoundary
  refine foldl_keeps (fun d hu => ?_) _ (foldl_keeps (fun d hu => hu.treatTake b d) _ hs)
  split
  · exact hu.of_same (requestToken_same _ d) rfl
  · exact hu

/-! ### Reference groups -/

theorem handOn (b : Boundary) (order : FollowerOrder) : Within room P (s.handOn b order) := by
  have ht {u : State} (hu : Within room P u) := hu.takesAtBoundary b
  have hw {u : State} (hu : Within room P u) := hu.of_same (wallsAtBoundary_same u b.group b.frame) rfl
  have hr {u : State} (hu : Within room P u) := hu.recordersAtBoundary b.group
  cases order with
  | takesWallsRecorders => exact hr (hw (ht hs))
  | takesRecordersWalls => exact hw (hr (ht hs))
  | wallsTakesRecorders => exact hr (ht (hw hs))
  | wallsRecordersTakes => exact ht (hr (hw hs))
  | recordersTakesWalls => exact hw (ht (hr hs))
  | recordersWallsTakes => exact ht (hw (hr hs))

theorem raiseRef (g : Group) (k : Option RefKind) : Within room P (s.raiseRef g k) := by
  cases k with
  | none => exact hs
  | some k => exact hs.raise _

theorem setGrp (g : Group) (r : GroupRec) : Within room P (s.setGrp g r) := hs.of_same (setGrp_same s g r) rfl

theorem clock (τ : Nat) : Within room P (s.clock τ) := hs.of_same (clock_same s τ) rfl

theorem boundary (g : Group) (time : Nat) (state : RefState) (p : Nat) (en : Bool) (k : Option RefKind)
    (order : FollowerOrder) : Within room P (s.boundary g time state p en k order) := by
  unfold State.boundary
  dsimp only
  split
  · exact hs
  · exact ((hs.setGrp g _).raiseRef g k).handOn _ order

theorem expireTolerance (g : Group) (order : FollowerOrder) : Within room P (s.expireTolerance g order) :=
  (hs.clock _).boundary g _ _ _ _ _ order

theorem freewheel (g : Group) (order : FollowerOrder) : Within room P (s.freewheel g order) :=
  (hs.clock _).boundary g _ _ _ _ _ order

theorem edge (g : Group) (order : FollowerOrder) : Within room P (s.edge g order) := by
  unfold State.edge State.edgeLocked State.recapture
  dsimp only
  split
  · exact hs
  · split <;> exact hs.boundary g _ _ _ _ _ order
  · split
    · exact hs.boundary g _ _ _ _ _ order
    · exact (hs.setGrp g _).raiseRef g _

/-! ### The matrix link -/

theorem withLink (l : Link) : Within room P { s with link := l } := hs.of_same (withLink_same s l) rfl

theorem unmatch : Within room P s.unmatch := hs.withLink _

theorem setLink (v : LinkState) (k : LinkCause) : Within room P (s.setLink v k) := (hs.withLink _).raise _

theorem startSurvey : Within room P s.startSurvey :=
  ((hs.withLink { s.link with state := .surveying }).of_same (sendMatrix_same _ .surveyReq) rfl).raise _

theorem linkDown (k : LinkCause) : Within room P (s.linkDown k) := by
  unfold State.linkDown
  split
  · exact hs
  · exact (hs.withLink _).setLink _ _
  · have hcancelled : Within room P (s.setLink .down k).cancelAll :=
      foldl_keeps (fun d hu => (hu.endPending d _).endNext d _) _ (hs.setLink .down k)
    exact hcancelled.withLink _

theorem resetLink : Within room P s.resetLink := by
  have hdown := (hs.linkDown .blockReset).withLink
    { (s.linkDown .blockReset).link with unmatched := 0 }
  unfold State.resetLink
  dsimp only
  split
  · exact hdown.startSurvey
  · exact hdown

theorem applyMatched (d : Dest) (x : Source) (t : Token) (held : Nat) :
    Within room P (s.applyMatched d x t held) := by
  unfold State.applyMatched
  split
  · exact hs
  · next p _ =>
    have hmeasured := (hs.of_same (freeToken_same s t) rfl).of_same
      (withSched_same _ ((s.freeToken t).measure p held).sched) rfl
    exact (((hmeasured.writeSource d (some x) .cut).setSuspect d false).endPending d _).dispatchDue [d]

theorem applyForeign (d : Dest) (x : Source) (t : Byte) (b : Bool) :
    Within room P (s.applyForeign d x t b) := by
  have hwritten := (hs.writeSource d (some x) .foreign).setSuspect d false
  unfold State.applyForeign
  dsimp only
  split
  · exact hwritten
  · exact hwritten.raise _

theorem upReport (r : Report) : Within room P (s.upReport r) := by
  unfold State.upReport
  split
  · split
    · exact hs.unmatch
    · split
      · exact hs.applyMatched _ _ _ _
      · exact (hs.of_same (freeToken_same s _) rfl).applyForeign _ _ _ _
      · exact hs.applyForeign _ _ _ _
      · exact hs.unmatch.applyForeign _ _ _ _
  · exact hs.unmatch

theorem report (r : Report) : Within room P (s.report r) := by
  unfold State.report State.surveyReport
  split
  · exact hs
  · split
    · exact (hs.writeSource _ _ _).setSuspect _ _
    · exact hs.unmatch
  · exact hs.upReport r

theorem endSurvey (dests sources : Nat) : Within room P (s.endSurvey dests sources) := by
  unfold State.endSurvey
  split
  · exact hs
  · exact hs.unmatch
  · have hdeclared := hs.of_same (withMap_same s { s.map with
      dests := clamp 1 512 dests, sources := clamp 1 1024 sources }) rfl
    exact ((foldl_keeps (fun d hu => hu.clearSource d) _ hdeclared).splitLost _).setLink _ _

theorem matrixBody (body : List Byte) : Within room P (s.matrixBody body) := by
  unfold State.matrixBody
  split
  · exact hs.report _
  · split
    · exact hs.endSurvey _ _
    · exact hs.unmatch

theorem matrixByte (b : Byte) : Within room P (s.matrixByte b) := by
  have htaken := hs.withLink { s.link with receiver := (receiverTake s.link.receiver b).1 }
  unfold State.matrixByte
  dsimp only
  split
  · exact htaken
  · exact htaken.unmatch
  · exact (htaken.matrixBody _).flushHigh

theorem endMatrixGap : Within room P s.endMatrixGap := hs.of_same (endMatrixGap_same s) rfl

theorem matrixBytes (bytes : List Byte) : Within room P (s.matrixBytes bytes) := by
  unfold State.matrixBytes
  split
  · exact hs
  · exact foldl_keeps (fun b hu => hu.matrixByte b) bytes (hs.endMatrixGap.withLink _)

/-! ### Salvos and trigger inputs -/

omit hs in
theorem fireEntries {acc : FireAccount × State} (hs : Within room P acc.2) (k : SlotNo) (owner : PanelNo)
    (pl : Placement) (l : List (Dest × Source)) :
    Within room P (l.foldl (Machine.fireEntry k owner pl) acc).2 := by
  induction l generalizing acc with
  | nil => exact hs
  | cons e l ih =>
    refine ih ?_
    obtain ⟨a, s⟩ := acc
    cases hc : s.accessCheck owner e.1 (some e.2) with
    | some v => rwa [fireEntry_refused hc]
    | none =>
      rw [fireEntry_accepted hc]
      exact hs.arrive e.1 _ pl

theorem fire (k : SlotNo) : Within room P (s.fire k).state := by
  unfold State.fire
  dsimp only
  split
  · exact hs
  · split
    · exact hs
    · split
      · exact hs
      · have hfired := fireEntries (acc := (FireAccount.start, s)) hs k (s.slot k).owner
          (s.placement (s.slot k).group) (s.slot k).entries
        exact (hfired.of_same (setSlot_same _ k _) rfl).dispatchDue _

theorem setTrig (i : InputNo) (r : Trigger) : Within room P (s.setTrig i r) :=
  hs.of_same (setTrig_same s i r) rfl

theorem edgeAct (r : Trigger) (rising : Bool) : Within room P (s.edgeAct r rising).state := by
  unfold State.edgeAct
  split
  · exact hs.fire _
  · exact hs.recStart _ _
  · exact hs.recStop _ _
  · split
    · exact hs.recStart _ _
    · exact hs.recStop _ _
  · exact hs

theorem qualify (i : InputNo) : Within room P (s.qualify i) := by
  have hacted := ((hs.setTrig i { s.trig i with level := (s.trig i).raw, interval := none }).edgeAct
    { s.trig i with level := (s.trig i).raw, interval := none } (s.trig i).raw).flushHigh
  unfold State.qualify
  dsimp only
  split
  · exact hacted.raise _
  · exact hacted

theorem startInterval (i : InputNo) : Within room P (s.startInterval i) := by
  have hstarted := hs.setTrig i { s.trig i with interval := some ⟨s.now, (s.trig i).q.toNat⟩ }
  unfold State.startInterval
  dsimp only
  split
  · exact hstarted.qualify i
  · exact hstarted

theorem rawChange (i : InputNo) (b : Bool) : Within room P (s.rawChange i b) := by
  have hraw := hs.setTrig i { s.trig i with raw := b }
  unfold State.rawChange
  dsimp only
  split
  · exact hraw.setTrig i _
  · split
    · exact hraw.startInterval i
    · exact hraw

end Within

end Sys2Proof.Machine
end

section
/-! O17: the orders, the frames received, the resets and every other command keep the limits. -/

namespace Sys2Proof.Machine

theorem canServe_room {s : State} (h : s.canServe = true) : s.control.replies.length ≤ 15 := by
  unfold State.canServe at h
  exact Nat.le_of_lt_succ (of_decide_eq_true (Bool.and_eq_true_iff.1 h).2)

namespace Within

variable {room : Nat} {P : ChannelNo → Prop} {s : State}

section
variable (hs : Within room P s)
include hs

/-! ### The orders -/

theorem serveTake (o : Order) : Within room P (Machine.serveTake o s).state := by
  unfold Machine.serveTake
  split
  · next d x p _ _ _ =>
    split
    · exact hs
    · have harrive := hs.arrive d ⟨x, p, o.ticket, none⟩ (s.placement (s.entry d).group)
      dsimp only
      split <;> rename_i heq <;> rw [heq] at harrive
      · exact harrive
      · exact harrive.dispatchDue [d]
  · exact hs

theorem serveRefSet (order : FollowerOrder) (o : Order) :
    Within room P (Machine.serveRefSet order o s).state := by
  unfold Machine.serveRefSet
  split
  · split
    · exact (hs.setGrp _ _).boundary _ _ _ _ _ _ order
    · exact hs.setGrp _ _
  · exact hs

theorem serveSalvoFire (o : Order) : Within room P (Machine.serveSalvoFire o s).state := by
  unfold Machine.serveSalvoFire
  split
  · exact hs
  · exact hs.fire _

theorem serveRecBind (o : Order) : Within room P (Machine.serveRecBind o s).state := by
  unfold Machine.serveRecBind
  split
  · split
    · exact hs
    · exact hs.setChan (hs.recorder.marks _) rfl
  · exact hs

theorem serveRecStart (o : Order) : Within room P (Machine.serveRecStart o s).state := by
  unfold Machine.serveRecStart
  split
  · exact hs
  · next c _ =>
    have hstarted := hs.recStart c .order
    split <;> rename_i heq <;> rw [heq] at hstarted <;> exact hstarted

theorem serveRecStop (o : Order) : Within room P (Machine.serveRecStop o s).state := by
  unfold Machine.serveRecStop
  split
  · exact hs
  · exact hs.recStop _ _

theorem serveRecMarks (o : Order) : Within room P (Machine.serveRecMarks o s).state := by
  unfold Machine.serveRecMarks
  split
  · exact hs
  · next c _ =>
    exact hs.setChan (by
      rw [List.length_drop]
      exact (Nat.sub_le _ _).trans (hs.recorder.marks c)) rfl

/-- The enable set, the notices-lost flag and the reset that is due are no lists. -/
theorem withFlags (enables : Byte) (lost due : Bool) : Within room P
    { s with control := { s.control with enables := enables, lost := lost, resetDue := due } } :=
  hs.withControl ⟨hs.control.orders, hs.control.replies, hs.control.notices⟩

theorem serveNoticeSet (o : Order) : Within room P (Machine.serveNoticeSet o s).state := by
  unfold Machine.serveNoticeSet
  split
  · exact hs
  · exact hs.withFlags _ _ _

theorem serveBlockReset (o : Order) : Within room P (Machine.serveBlockReset o s).state := by
  unfold Machine.serveBlockReset
  split
  · exact hs
  · next b _ =>
    cases b with
    | link => exact hs.resetLink
    | salvos => exact hs.of_parts rfl rfl
    | walls w => exact hs.of_same (resetWalls_same s w) rfl
    | recorders => exact hs.resetRecorders
    | panels => exact hs.of_parts rfl rfl

/-! ### Events -/

theorem event {f : State → State} (hf : ∀ {u : State}, Within room P u → Within room P (f u)) (τ : Nat) :
    Within room P (s.event τ f) := by
  unfold State.event
  split
  · exact hs
  · exact (hf (hs.clock τ)).flushHigh

theorem wholeMessage {f : State → State} (hf : ∀ {u : State}, Within room P u → Within room P (f u))
    (τ : Nat) : Within room P (s.wholeMessage τ f) := by
  unfold State.wholeMessage
  split
  · exact hs.event (fun hu => hf hu.endMatrixGap) τ
  · exact hs

theorem expireBefore (τ : Nat) (g : Group) (order : FollowerOrder) :
    Within room P (s.expireBefore τ g order) := by
  unfold State.expireBefore
  dsimp only
  split
  · exact hs.event (fun hu => hu.expireTolerance g order) _
  · exact hs

/-! ### The resets of the part -/

/-- The HALTs that a release issues fit channels that are IDLE. -/
theorem releaseReset (hidle : ∀ c, P c → (s.chan c).state = .idle) : Within room P s.releaseReset := by
  have hread : Within room P s.started.readCarrier := by
    have hstarted : Within room P s.started := hs.of_parts rfl rfl
    unfold State.readCarrier
    split
    · exact hstarted.startSurvey
    · exact hstarted
  have hchan (c : ChannelNo) : s.started.readCarrier.chan c = s.chan c :=
    chan_of_same (readCarrier_same _) (c := c)
  obtain ⟨hhalted, -⟩ := foldl_keeps (I := fun u => Within room P u ∧ ∀ c, u.chan c = s.chan c)
    (f := State.issueHalt) (fun c ⟨hu, hc⟩ =>
      ⟨issueHalt (hu.mono fun _ h => h.1) fun hp => by rw [hc]; exact hidle c hp,
        fun b => (issue_chan _ c _ _ _ b).trans (hc b)⟩) (List.finRange 16) ⟨hread, hchan⟩
  rw [releaseReset_eq]
  refine foldl_keeps (fun i hu => ?_) _ hhalted
  unfold State.readRaw
  split
  · exact hu.startInterval i
  · exact hu

end

theorem deviceReset (s : State) : Within room P s.deviceReset :=
  (within_assertReset room P _).releaseReset fun c _ => by rw [assertReset_chan]; rfl

/-! ### The interface between events -/

section
variable (hs : Within 16 P s)
include hs

theorem discard : Within 16 P s.discard :=
  hs.withControl ⟨hs.control.orders, hs.control.replies, hs.control.notices⟩

theorem receiverReply (r : Reply) : Within 16 P (s.receiverReply r) := by
  unfold State.receiverReply
  split
  · next h =>
    have hroom : s.control.Within 15 :=
      ⟨hs.control.orders, Nat.le_of_lt_succ h, hs.control.notices⟩
    exact hs.withControl (hroom.pushReply r)
  · exact hs.discard

theorem judgeBody (body : List Byte) : Within 16 P (s.judgeBody body) := by
  unfold State.judgeBody State.offer
  dsimp only
  split
  · exact hs.discard
  · split
    · exact hs.discard
    · split
      · exact hs.receiverReply _
      · split
        · next h =>
          exact hs.withControl ⟨by rw [List.length_append]; exact h, hs.control.replies, hs.control.notices⟩
        · exact hs.receiverReply _

/-- The receiver's state and the time of its last byte are no lists. -/
theorem withReceiver (r : Receiver) (last : Nat) :
    Within 16 P { s with control := { s.control with receiver := r, lastByte := last } } :=
  hs.withControl ⟨hs.control.orders, hs.control.replies, hs.control.notices⟩

theorem controlByte (b : Byte) : Within 16 P (s.controlByte b) := by
  have htaken := hs.withReceiver (receiverTake s.control.receiver b).1 s.control.lastByte
  unfold State.controlByte
  dsimp only
  split
  · exact htaken
  · exact htaken.discard
  · exact htaken.judgeBody _

theorem controlGap : Within 16 P s.controlGap := (hs.withReceiver .hunting s.control.lastByte).discard

theorem controlBytes (bytes : List Byte) : Within 16 P (s.controlBytes bytes) := by
  unfold State.controlBytes
  refine foldl_keeps (fun b hu => hu.controlByte b) bytes ?_
  split
  · exact hs.controlGap.withReceiver _ _
  · exact hs.withReceiver _ _

theorem controlSent : Within 16 P s.controlSent :=
  hs.withControl (Control.Within.begin ⟨hs.control.orders, hs.control.replies, hs.control.notices⟩)

/-- An order is served only while its reply has room (R157), and the notices of its serving take none of
it. -/
theorem serveIf {act : Order → State → Answer}
    (ha : ∀ {u : State} o, Within 15 P u → Within 15 P (act o u).state) (τ : Nat) (mine : Order → Bool) :
    Within 16 P (s.serveIf τ mine act) := by
  unfold State.serveIf
  split
  · next hready =>
    split
    · exact hs
    · next o _ _ =>
      split
      · have hdesk : Within 15 P ((s.clock τ).beginServing o) := (hs.clock τ).withControl
          ⟨hs.control.orders, canServe_room hready, hs.control.notices⟩
        have hserved := (ha o hdesk).flushHigh
        have htail : Control.Within 15
            { (act o ((s.clock τ).beginServing o)).state.flushHigh.control with
              serving := none
              orders := (act o ((s.clock τ).beginServing o)).state.flushHigh.control.orders.tail } :=
          ⟨(List.tail_sublist _).length_le.trans hserved.control.orders, hserved.control.replies,
            hserved.control.notices⟩
        exact hserved.withControl (htail.pushReply _)
      · exact hs
  · exact hs

theorem serve {act : Order → State → Answer}
    (ha : ∀ {u : State} o, Within 15 P u → Within 15 P (act o u).state) (τ : Nat) (code : Byte) :
    Within 16 P (s.serve τ code act) :=
  hs.serveIf (fun o hu => ifFormed_keeps ha o hu) τ _

/-- An order is served that writes neither the interface nor the recorder unit. -/
theorem serve_of_same {ps : List Part} {act : Order → State → Answer}
    (ha : ∀ o u, SameBut ps u (act o u).state) (hp : ps.all Part.limitless = true) (τ : Nat) (code : Byte) :
    Within 16 P (s.serve τ code act) :=
  hs.serve (fun o hu => hu.of_same (ha o _) hp) τ code

theorem serveBlock (τ : Nat) (these : Block → Bool) : Within 16 P (s.serveBlock τ these) :=
  hs.serveIf (fun o hu => ifFormed_keeps (fun o hu => hu.serveBlockReset o) o hu) τ _

/-! ### Every command -/

variable {t : State}

theorem exec_of_footprint {c : Instr} (ht : exec c s = .next t)
    (hp : (footprint c).all Part.limitless = true) : Within 16 P t := by
  obtain ⟨u, hu, hsame⟩ := exec_same c s
  exact next_keeps (hu.symm.trans ht) (hs.of_same hsame hp)

theorem execControlTxComplete {τ : Nat} (ht : Machine.execControlTxComplete τ s = .next t) :
    Within 16 P t := by
  unfold Machine.execControlTxComplete at ht
  split at ht
  · exact next_keeps ht hs
  · split at ht
    · exact next_keeps ht hs.controlSent
    · split at ht
      · exact next_keeps ht (deviceReset s)
      · exact next_keeps ht (hs.clock τ).controlSent

theorem execOverdueEntry {d : Dest} (ht : Machine.execOverdueEntry d s = .next t) : Within 16 P t := by
  unfold Machine.execOverdueEntry at ht
  split at ht
  · exact next_keeps ht hs
  · split at ht
    · exact next_keeps ht (hs.event (fun hu => hu.of_same (setPending_same _ d _) rfl) _)
    · exact next_keeps ht hs

theorem execTakeTimedOut {d : Dest} (ht : Machine.execTakeTimedOut d s = .next t) : Within 16 P t := by
  unfold Machine.execTakeTimedOut at ht
  split at ht
  · exact next_keeps ht hs
  · split at ht
    · exact next_keeps ht (hs.event (fun hu => (hu.timeOut d).dispatchDue [d]) _)
    · exact next_keeps ht hs

theorem execCarrierGain {τ : Nat} (ht : Machine.execCarrierGain τ s = .next t) : Within 16 P t := by
  unfold Machine.execCarrierGain at ht
  split at ht
  · exact next_keeps ht hs
  · refine next_keeps ht (event (hs.of_same (withPins_same s _) rfl) (fun hu => ?_) τ)
    split
    · exact hu.startSurvey
    · exact hu

theorem execCarrierLoss {τ : Nat} (ht : Machine.execCarrierLoss τ s = .next t) : Within 16 P t := by
  unfold Machine.execCarrierLoss at ht
  split at ht
  · have hlost := (hs.of_same (withPins_same s { s.pins with carrier := false }) rfl).withLink
      { s.link with line := none }
    exact next_keeps ht (hlost.event (fun hu => (hu.withLink _).linkDown .carrierLost) τ)
  · exact next_keeps ht hs

/-- The channel whose cue ends is in CUEING in its event too. -/
theorem execCueEnd {c : ChannelNo} (ht : Machine.execCueEnd c s = .next t) : Within 16 P t := by
  unfold Machine.execCueEnd at ht
  split at ht
  · next h =>
    have hst : (s.chan c).state ≠ .idle := by
      obtain ⟨hcueing, -⟩ := Bool.and_eq_true_iff.1 h
      simp [beq_iff_eq.1 hcueing]
    refine next_keeps ht ?_
    unfold State.event
    split
    · exact hs
    · have hnow := hs.clock s.now
      exact (enterRecording (hnow.mono fun _ h => h.1) (hnow.no_halt hst) .cueEnd).flushHigh
  · exact next_keeps ht hs

theorem execRecorderTxComplete {τ : Nat} (ht : Machine.execRecorderTxComplete τ s = .next t) :
    Within 16 P t := by
  have hidle : Recorder.Within P { s.recorder with line := none } :=
    ⟨hs.recorder.marks, hs.recorder.commands, hs.recorder.fit⟩
  unfold Machine.execRecorderTxComplete at ht
  split at ht
  · exact next_keeps ht hs
  · refine next_keeps ht ?_
    split
    · exact ⟨hs.control, hidle.begin⟩
    · exact ⟨hs.control, hidle.begin⟩

/-- Every command keeps the limits. -/
theorem exec (hidle : s.pins.reset = true → ∀ c, P c → (s.chan c).state = .idle) {c : Instr}
    (ht : Machine.exec c s = .next t) : Within 16 P t := by
  cases c with
  | resetPinAssert =>
    change execResetPinAssert s = _ at ht
    unfold execResetPinAssert at ht
    split at ht
    · exact next_keeps ht hs
    · exact next_keeps ht (within_assertReset 16 P s)
  | resetPinRelease =>
    change execResetPinRelease s = _ at ht
    unfold execResetPinRelease at ht
    split at ht
    · next hr => exact next_keeps ht (hs.releaseReset (hidle hr))
    · exact next_keeps ht hs
  | controlFrameReceived τ bytes => exact next_keeps ht (hs.event (fun hu => hu.controlBytes bytes) τ)
  | controlFrameGapTimeout =>
    change execControlFrameGapTimeout s = _ at ht
    unfold execControlFrameGapTimeout at ht
    split at ht
    · exact next_keeps ht hs
    · exact next_keeps ht (hs.event (fun hu => hu.controlGap) _)
  | unknownOrder τ =>
    exact next_keeps ht (hs.serveIf (fun o hu => hu.of_same (serveUnknown_same o _) rfl) τ _)
  | take τ => exact next_keeps ht (hs.serve (fun o hu => hu.serveTake o) τ _)
  | destSet τ => exact next_keeps ht (hs.serve_of_same serveDestSet_same rfl τ _)
  | lock τ => exact next_keeps ht (hs.serve_of_same serveLock_same rfl τ _)
  | unlock τ => exact next_keeps ht (hs.serve_of_same serveUnlock_same rfl τ _)
  | protect τ => exact next_keeps ht (hs.serve_of_same serveProtect_same rfl τ _)
  | query τ => exact next_keeps ht (hs.serve_of_same serveQuery_same rfl τ _)
  | seek τ => exact next_keeps ht (hs.serve_of_same serveSeek_same rfl τ _)
  | panelSet τ => exact next_keeps ht (hs.serve_of_same servePanelSet_same rfl τ _)
  | panelRead τ => exact next_keeps ht (hs.serve_of_same servePanelRead_same rfl τ _)
  | refSet τ order => exact next_keeps ht (hs.serve (fun o hu => hu.serveRefSet order o) τ _)
  | refRead τ => exact next_keeps ht (hs.serve_of_same serveRefRead_same rfl τ _)
  | refEdge τ g order =>
    exact next_keeps ht ((hs.expireBefore τ g order).event (fun hu => hu.edge g order) τ)
  | toleranceExpiry g order =>
    change execToleranceExpiry g order s = _ at ht
    unfold execToleranceExpiry at ht
    split at ht
    · exact next_keeps ht (hs.event (fun hu => hu.expireTolerance g order) _)
    · exact next_keeps ht hs
  | freewheelBoundary g order =>
    change execFreewheelBoundary g order s = _ at ht
    unfold execFreewheelBoundary at ht
    split at ht
    · exact next_keeps ht (hs.event (fun hu => hu.freewheel g order) _)
    · exact next_keeps ht hs
  | overdueEntry d => exact hs.execOverdueEntry ht
  | takeTimedOut d => exact hs.execTakeTimedOut ht
  | takeFallsDue τ => exact next_keeps ht (hs.event (fun hu => hu.dispatchDue _) τ)
  | leadSet τ => exact next_keeps ht (hs.serve_of_same serveLeadSet_same rfl τ _)
  | leadRead τ => exact next_keeps ht (hs.serve_of_same serveLeadRead_same rfl τ _)
  | carrierGain τ => exact hs.execCarrierGain ht
  | carrierLoss τ => exact hs.execCarrierLoss ht
  | routeReport τ dest source token held survey =>
    exact next_keeps ht (hs.wholeMessage (fun hu => hu.report _) τ)
  | surveyEnd τ dests sources => exact next_keeps ht (hs.wholeMessage (fun hu => hu.endSurvey _ _) τ)
  | matrixBadFrame τ bytes => exact next_keeps ht (hs.event (fun hu => hu.matrixBytes bytes) τ)
  | matrixFrameGapTimeout =>
    change execMatrixFrameGapTimeout s = _ at ht
    unfold execMatrixFrameGapTimeout at ht
    split at ht
    · exact next_keeps ht hs
    · exact next_keeps ht (hs.event (fun hu => hu.of_same (matrixGap_same _) rfl) _)
  | matrixTxComplete τ => exact hs.exec_of_footprint ht rfl
  | salvoOpen τ => exact next_keeps ht (hs.serve_of_same serveSalvoOpen_same rfl τ _)
  | salvoPut τ => exact next_keeps ht (hs.serve_of_same serveSalvoPut_same rfl τ _)
  | salvoDrop τ => exact next_keeps ht (hs.serve_of_same serveSalvoDrop_same rfl τ _)
  | salvoArm τ => exact next_keeps ht (hs.serve_of_same serveSalvoArm_same rfl τ _)
  | salvoClear τ => exact next_keeps ht (hs.serve_of_same serveSalvoClear_same rfl τ _)
  | salvoFire τ => exact next_keeps ht (hs.serve (fun o hu => hu.serveSalvoFire o) τ _)
  | salvoRead τ => exact next_keeps ht (hs.serve_of_same serveSalvoRead_same rfl τ _)
  | trigSet τ => exact next_keeps ht (hs.serve_of_same serveTrigSet_same rfl τ _)
  | trigRead τ => exact next_keeps ht (hs.serve_of_same serveTrigRead_same rfl τ _)
  | triggerRawChange τ i b =>
    change execTriggerRawChange τ i b s = _ at ht
    unfold execTriggerRawChange at ht
    split at ht
    · exact next_keeps ht hs
    · split at ht
      · exact next_keeps ht (hs.setTrig i _)
      · exact next_keeps ht (hs.event (fun hu => hu.rawChange i b) τ)
  | qualifiedEdge i =>
    change execQualifiedEdge i s = _ at ht
    unfold execQualifiedEdge at ht
    split at ht
    · exact next_keeps ht hs
    · exact next_keeps ht (hs.event (fun hu => hu.qualify i) _)
  | tallyRead τ => exact next_keeps ht (hs.serve_of_same serveTallyRead_same rfl τ _)
  | nameSet τ => exact next_keeps ht (hs.serve_of_same serveNameSet_same rfl τ _)
  | tileSet τ => exact next_keeps ht (hs.serve_of_same serveTileSet_same rfl τ _)
  | wallFreeze τ => exact next_keeps ht (hs.serve_of_same serveWallFreeze_same rfl τ _)
  | wallThaw τ => exact next_keeps ht (hs.serve_of_same serveWallThaw_same rfl τ _)
  | wallSet τ => exact next_keeps ht (hs.serve_of_same serveWallSet_same rfl τ _)
  | wallRead τ => exact next_keeps ht (hs.serve_of_same serveWallRead_same rfl τ _)
  | wallRecordTxComplete τ w => exact hs.exec_of_footprint ht rfl
  | recBind τ => exact next_keeps ht (hs.serve (fun o hu => hu.serveRecBind o) τ _)
  | recStart τ => exact next_keeps ht (hs.serve (fun o hu => hu.serveRecStart o) τ _)
  | recStop τ => exact next_keeps ht (hs.serve (fun o hu => hu.serveRecStop o) τ _)
  | cueEnd c => exact hs.execCueEnd ht
  | recMarks τ => exact next_keeps ht (hs.serve (fun o hu => hu.serveRecMarks o) τ _)
  | recRead τ => exact next_keeps ht (hs.serve_of_same serveRecRead_same rfl τ _)
  | recorderTxComplete τ => exact hs.execRecorderTxComplete ht
  | noticeSet τ => exact next_keeps ht (hs.serve (fun o hu => hu.serveNoticeSet o) τ _)
  | status τ => exact next_keeps ht (hs.serve (fun _ hu => hu.withFlags _ false _) τ _)
  | controlTxComplete τ => exact hs.execControlTxComplete ht
  | blockResetLink τ => exact next_keeps ht (hs.serveBlock τ _)
  | blockResetSalvos τ => exact next_keeps ht (hs.serveBlock τ _)
  | blockResetWalls τ => exact next_keeps ht (hs.serveBlock τ _)
  | blockResetRecorders τ => exact next_keeps ht (hs.serveBlock τ _)
  | blockResetPanels τ => exact next_keeps ht (hs.serveBlock τ _)
  | deviceReset τ => exact next_keeps ht (hs.serve (fun _ hu => hu.withFlags _ _ true) τ _)
  | deviceResetTakesEffect =>
    change execDeviceResetTakesEffect s = _ at ht
    unfold execDeviceResetTakesEffect at ht
    split at ht
    · exact next_keeps ht (deviceReset s)
    · exact next_keeps ht hs

end

end Within

end Sys2Proof.Machine
end

section
/-! O17: no MARKS_HIGH is owed when a step ends (R146), and the limits together. -/

namespace Sys2Proof.Machine

/-! ### Nothing is owed -/

@[simp] theorem flushHigh_high (s : State) : s.flushHigh.recorder.high = [] := by
  rw [flushHigh_eq_paid]; rfl

theorem event_high {s : State} (h : s.recorder.high = []) (τ : Nat) (f : State → State) :
    (s.event τ f).recorder.high = [] := by
  unfold State.event
  split
  · exact h
  · exact flushHigh_high _

theorem serveIf_high {s : State} (h : s.recorder.high = []) (τ : Nat) (mine : Order → Bool)
    (act : Order → State → Answer) : (s.serveIf τ mine act).recorder.high = [] := by
  unfold State.serveIf
  split
  · split
    · exact h
    · split
      · exact flushHigh_high _
      · exact h
  · exact h

theorem qualify_high (s : State) (i : InputNo) : (s.qualify i).recorder.high = [] := by
  unfold State.qualify
  dsimp only
  split
  · exact flushHigh_high _
  · exact flushHigh_high _

theorem releaseReset_high {s : State} (h : s.recorder.high = []) : s.releaseReset.recorder.high = [] := by
  rw [releaseReset_eq]
  refine foldl_keeps (I := fun u => u.recorder.high = []) (fun i hu => ?_) _
    (foldl_keeps (I := fun u => u.recorder.high = [])
      (fun c hu => (Recorder.issue_keeps _ c _ _ _).2.trans hu) _ ?_)
  · unfold State.readRaw State.startInterval
    dsimp only
    split
    · split
      · exact qualify_high _ i
      · exact hu
    · exact hu
  · exact (congrArg Recorder.high (readCarrier_same s.started .recorder (by decide))).trans h

theorem expireBefore_high {s : State} (h : s.recorder.high = []) (τ : Nat) (g : Group)
    (order : FollowerOrder) : (s.expireBefore τ g order).recorder.high = [] := by
  unfold State.expireBefore
  dsimp only
  split
  · exact event_high h _ _
  · exact h

theorem deviceReset_high (s : State) : s.deviceReset.recorder.high = [] := by
  rw [State.deviceReset]
  exact releaseReset_high
    (assertReset_resetValues { s with control := { s.control with line := none } }).line.2

/-- No MARKS_HIGH is owed. -/
def State.owesNothing (s : State) : Prop := s.recorder.high = []

theorem exec_high_of_footprint {c : Instr} {s t : State} (h : s.owesNothing) (ht : exec c s = .next t)
    (hp : Part.recorder ∉ footprint c) : t.owesNothing := by
  obtain ⟨u, hu, hsame⟩ := exec_same c s
  have hrec : u.recorder = s.recorder := hsame .recorder hp
  exact next_keeps (I := State.owesNothing) (hu.symm.trans ht) ((congrArg Recorder.high hrec).trans h)

/-- Every event ends with the notices that it owes. -/
theorem exec_high {c : Instr} {s t : State} (h : s.owesNothing) (ht : exec c s = .next t) :
    t.owesNothing := by
  cases hc : atTheLines c with
  | false =>
    obtain hs | ⟨τ, f, hs⟩ | ⟨τ, mine, act, hs⟩ := exec_shape hc s
    · exact next_keeps (hs.symm.trans ht) h
    · exact next_keeps (I := State.owesNothing) (hs.symm.trans ht) (event_high h τ f)
    · exact next_keeps (I := State.owesNothing) (hs.symm.trans ht) (serveIf_high h τ mine act)
  | true =>
    cases c with
    | resetPinAssert =>
      change execResetPinAssert s = _ at ht
      unfold execResetPinAssert at ht
      split at ht
      · exact next_keeps ht h
      · exact next_keeps (I := State.owesNothing) ht (assertReset_resetValues s).line.2
    | resetPinRelease =>
      change execResetPinRelease s = _ at ht
      unfold execResetPinRelease at ht
      split at ht
      · exact next_keeps (I := State.owesNothing) ht (releaseReset_high h)
      · exact next_keeps ht h
    | refEdge τ g order =>
      exact next_keeps (I := State.owesNothing) ht (event_high (expireBefore_high h τ g order) τ _)
    | carrierGain τ =>
      change execCarrierGain τ s = _ at ht
      unfold execCarrierGain at ht
      split at ht
      · exact next_keeps ht h
      · exact next_keeps (I := State.owesNothing) ht
          (event_high (s := { s with pins := { s.pins with carrier := true } }) h τ _)
    | carrierLoss τ =>
      change execCarrierLoss τ s = _ at ht
      unfold execCarrierLoss at ht
      split at ht
      · exact next_keeps (I := State.owesNothing) ht
          (event_high (s := { s with
            pins := { s.pins with carrier := false }, link := { s.link with line := none } }) h τ _)
      · exact next_keeps ht h
    | triggerRawChange τ i level =>
      change execTriggerRawChange τ i level s = _ at ht
      unfold execTriggerRawChange at ht
      split at ht
      · exact next_keeps ht h
      · split at ht
        · exact next_keeps (I := State.owesNothing) ht h
        · exact next_keeps (I := State.owesNothing) ht (event_high h τ _)
    | recorderTxComplete τ =>
      change execRecorderTxComplete τ s = _ at ht
      unfold execRecorderTxComplete at ht
      split at ht
      · exact next_keeps ht h
      · refine next_keeps (I := State.owesNothing) ht ((Recorder.begin_keeps _).2.trans ?_)
        split
        · exact h
        · exact h
    | controlTxComplete τ =>
      change execControlTxComplete τ s = _ at ht
      unfold execControlTxComplete at ht
      split at ht
      · exact next_keeps ht h
      · split at ht
        · exact next_keeps (I := State.owesNothing) ht h
        · split at ht
          · exact next_keeps (I := State.owesNothing) ht (deviceReset_high s)
          · exact next_keeps (I := State.owesNothing) ht h
    | deviceResetTakesEffect =>
      change execDeviceResetTakesEffect s = _ at ht
      unfold execDeviceResetTakesEffect at ht
      split at ht
      · exact next_keeps (I := State.owesNothing) ht (deviceReset_high s)
      · exact next_keeps ht h
    | matrixTxComplete τ => exact exec_high_of_footprint h ht (by simp [footprint])
    | wallRecordTxComplete τ w => exact exec_high_of_footprint h ht (by simp [footprint])
    | _ => exact nomatch hc

/-! ### The limits -/

theorem within_of_withinLimits {s : State} (h : WithinLimits s) : Within 16 (fun _ => False) s :=
  ⟨⟨h.orders, h.replies, h.notices⟩, h.marks, h.commands, fun _ _ => False.elim⟩

theorem Within.withinLimits {P : ChannelNo → Prop} {s : State} (h : Within 16 P s) (hg : GroupsLawful s)
    (ho : s.owesNothing) : WithinLimits s :=
  ⟨h.control.orders, h.control.replies, h.control.notices, h.recorder.marks, h.recorder.commands, hg, ho⟩

/-- Settles O17: within an event each list gains no more than it has room for, a command that is issued fits
the state its channel enters, a boundary keeps its group lawful, and the event ends with what it owes. -/
theorem everyStepKeepsTheRecordsWithinTheirLimits :
    Obligations.EveryStepKeepsTheRecordsWithinTheirLimits := by
  unfold Obligations.EveryStepKeepsTheRecordsWithinTheirLimits
  intro s t hs ht
  unfold step at ht
  split at ht
  · obtain rfl := Host.Outcome.next.inj ht
    exact ⟨hs, fun _ hfit => hfit⟩
  · next c cs _ =>
    have hwithin := within_of_withinLimits hs
    have hlimits : Within 16 (fun _ => False) t :=
      (hwithin.of_parts (t := { s with pending := cs }) rfl rfl).exec (fun _ _ => False.elim) ht
    have hgroups : GroupsLawful { s with pending := cs } := hs.groups
    refine ⟨hlimits.withinLimits (hgroups.exec ht) (exec_high (s := { s with pending := cs }) hs.owed ht),
      fun hheld hfit x hx => ?_⟩
    have hall : Within 16 (fun _ => True) { s with pending := cs } :=
      ⟨hwithin.control, hs.marks, hs.commands, fun y hy _ => hfit y hy⟩
    exact (hall.exec (fun hr c _ => by
      have hidle := (hheld hr).channels c
      exact congrArg Channel.state hidle) ht).recorder.fit x hx trivial

end Sys2Proof.Machine
end

section
/-! The interface's own orders, its transmitter and its notices: O13 to O16. -/

namespace Sys2Proof.Machine

/-! ### What an answer reads of the interface -/

/-- The transmitter reads neither the enables nor whether a reset is due. -/
theorem begin_enables_resetDue (c : Control) (e : Byte) (due : Bool) :
    Control.begin { c with enables := e, resetDue := due }
      = { c.begin with enables := e, resetDue := due } := by
  obtain ⟨receiver, lastByte, orders, serving, replies, notices, line, enables, discards, lost, resetDue⟩ := c
  cases line with
  | some f => rfl
  | none =>
    cases replies with
    | cons r rs => rfl
    | nil => cases notices <;> rfl

theorem answered_enables_resetDue (c : Control) (e : Byte) (due : Bool) (o : Order) (v : Verdict)
    (p : List Byte) : Control.answered { c with enables := e, resetDue := due } o v p
      = { c.answered o v p with enables := e, resetDue := due } :=
  begin_enables_resetDue { c with
    serving := none, orders := c.orders.tail, replies := c.replies ++ [⟨o.code, o.ticket, v, p⟩] } e due

theorem answered_desk (c : Control) (o : Order) (v : Verdict) (p : List Byte) :
    SameDesk { c with serving := none, orders := c.orders.tail } (c.answered o v p) :=
  pushReply_desk _ _

theorem answered_enables (c : Control) (e : Byte) (o : Order) (v : Verdict) (p : List Byte) :
    Control.answered { c with enables := e } o v p = { c.answered o v p with enables := e } := by
  have hdue : (c.answered o v p).resetDue = c.resetDue := (answered_desk c o v p).resetDue
  exact (answered_enables_resetDue c e c.resetDue o v p).trans
    (congrArg (fun due => { c.answered o v p with enables := e, resetDue := due }) hdue.symm)

theorem answered_resetDue (c : Control) (due : Bool) (o : Order) (v : Verdict) (p : List Byte) :
    Control.answered { c with resetDue := due } o v p = { c.answered o v p with resetDue := due } := by
  have henables : (c.answered o v p).enables = c.enables := (answered_desk c o v p).enables
  exact (answered_enables_resetDue c c.enables due o v p).trans
    (congrArg (fun e => { c.answered o v p with enables := e, resetDue := due }) henables.symm)

/-! ### NOTICE_SET and STATUS -/

theorem be16_of_byte (b : Byte) : be16 b.toNat = [0x00, b] := by
  have hhigh : b.toNat / 256 = 0 := Nat.div_eq_of_lt b.isLt
  simp [be16, hhigh]

/-- Settles O13, by the two branches of the test of the high byte. -/
theorem noticeSetReplacesTheEnables : Obligations.NoticeSetReplacesTheEnables := by
  unfold Obligations.NoticeSetReplacesTheEnables
  intro τ s o h
  refine ⟨fun hkind => congrArg Host.Outcome.next (serve_quiet h τ ?_), fun hkind => ?_⟩
  · rw [serveNoticeSet, if_pos hkind]
    rfl
  · refine congrArg Host.Outcome.next (serve_answer h τ (act := serveNoticeSet) (v := .done)
      (p := [0x00, byteAt o.payload 1]) (t := { s.atDesk τ o with
        control := { (s.atDesk τ o).control with enables := byteAt o.payload 1 } }) ?_ h.owed) |>.trans ?_
    · rw [serveNoticeSet, if_neg (not_not.2 hkind)]
      dsimp only
      rw [be16_of_byte]
      rfl
    · exact congrArg (fun c => Host.Outcome.next { s.answered τ o .done [0x00, byteAt o.payload 1] with
        control := c }) (answered_enables s.control _ o _ _)

/-- The payload of STATUS, its three token counts taken over the pool. -/
theorem statusPayload_eq (s : State) : s.statusPayload =
    be16 2460 ++ be8 0x41 ++ be8 s.link.state.code ++ be16 s.map.dests ++ be16 s.map.sources
      ++ be8 (s.grp .a).state.code ++ be8 (s.grp .b).state.code ++ be8 (s.grp .c).state.code
      ++ be8 (s.grp .d).state.code
      ++ be8 (s.link.pool.toList.countP (· = .inUse))
      ++ be8 (s.link.pool.toList.countP (fun t => t ≠ .inUse ∧ t ≠ .free))
      ++ be8 (s.link.pool.toList.countP (· = .free))
      ++ be16 s.link.waiting.length ++ be16 s.control.discards ++ be16 s.link.unmatched
      ++ be8 (if s.control.lost then 1 else 0) ++ be8 s.control.notices.length
      ++ be16 s.control.enables.toNat ++ be8 s.control.orders.length
      ++ be8 s.control.replies.length := by
  unfold State.statusPayload
  rw [select_length, select_length, select_length]
  have hbetween : (fun t => t != TokenState.inUse && t != TokenState.free)
      = fun t => decide (t ≠ .inUse ∧ t ≠ .free) := by
    funext t
    cases t <;> rfl
  have hone (x : TokenState) : (fun t => t == x) = fun t => decide (t = x) := by
    funext t
    rfl
  rw [hbetween, hone, hone]
  rfl

/-- Settles O14: the serving reads the status and writes the flag alone. -/
theorem statusReportsAndClearsTheLostFlag : Obligations.StatusReportsAndClearsTheLostFlag := by
  unfold Obligations.StatusReportsAndClearsTheLostFlag
  intro τ s o h
  rw [← statusPayload_eq]
  exact congrArg Host.Outcome.next (serve_answer h τ (act := serveStatus) (v := .done)
    (p := s.statusPayload) (t := { s.atDesk τ o with
      control := { (s.atDesk τ o).control with lost := false } }) rfl h.owed)

/-! ### The transmitter -/

theorem resetReplyOnLine_eq_true {s : State} : s.resetReplyOnLine = true ↔
    s.control.resetDue = true
      ∧ ∃ r, s.control.line = some (.reply r) ∧ r.code = 0x59 ∧ r.verdict = .done := by
  unfold State.resetReplyOnLine
  split
  · next r hline => simp [hline, and_assoc]
  · next hother => simpa using fun _ r hline => absurd hline (hother r)

/-- The transmitter at an idle line: the oldest reply, otherwise the oldest notice. -/
theorem begin_of_idle {c : Control} (h : c.line = none) : c.begin =
    match c.replies, c.notices with
    | r :: rs, _ => { c with line := some (.reply r), replies := rs }
    | [], n :: ns => { c with line := some (.notice n), notices := ns }
    | [], [] => c := by
  unfold Control.begin
  rw [h]
  dsimp only
  cases c.replies with
  | cons r rs => rfl
  | nil => cases c.notices <;> rfl

/-- Settles O15: the line is idle when its frame has ended, and the transmitter begins there. -/
theorem transmitterSendsRepliesBeforeNotices : Obligations.TransmitterSendsRepliesBeforeNotices := by
  unfold Obligations.TransmitterSendsRepliesBeforeNotices
  intro τ s hr hline hdue
  have hother : s.resetReplyOnLine ≠ true := fun hreset => by
    obtain ⟨hd, r, hl, hdone⟩ := resetReplyOnLine_eq_true.1 hreset
    exact hdue hd r hl hdone
  change execControlTxComplete τ s = _
  rw [execControlTxComplete, if_neg (by simpa using hline), hr, if_neg Bool.false_ne_true, if_neg hother,
    State.controlSent, begin_of_idle rfl]
  rfl

/-! ### Notices -/

/-- Settles O16, by the cases of a notice raised. -/
theorem raisedNoticeIsIgnoredQueuedOrDropped : Obligations.RaisedNoticeIsIgnoredQueuedOrDropped := by
  unfold Obligations.RaisedNoticeIsIgnoredQueuedOrDropped
  intro s n
  refine ⟨fun hoff => ?_, fun hon hroom => ⟨raise_notified hon hroom, raise_same s n,
    raise_outReplies _ _, (raise_desk _ _).orders⟩, fun hon hfull => ?_⟩
  · rw [State.raise, Control.raise, hoff, if_neg Bool.false_ne_true]
  · have hnoroom : ¬s.control.notices.length < Config.noticeRoom := Nat.not_lt.2 hfull
    rw [State.raise, Control.raise, hon, if_pos rfl, if_neg hnoroom]

end Sys2Proof.Machine
end

section
/-! The rows in which an order is served, and what stands before every serving: O12 and O7. -/

namespace Sys2Proof.Machine

/-! ### The rows of the orders -/

/-- A row serves the oldest order after the form test, and a code's row takes each order of that code
whose form is wrong. -/
def RowServes (τ : Nat) (row : Byte × Instr) : Prop :=
  ∃ mine act, (∀ s, exec row.2 s = .next (s.serveIf τ mine (ifFormed act)))
    ∧ ∀ o : Order, o.code = row.1 → o.formed = false → mine o = true

theorem RowServes.of_serve {τ : Nat} {code : Byte} {c : Instr} {act : Order → State → Answer}
    (h : ∀ s, exec c s = .next (s.serve τ code act)) : RowServes τ (code, c) :=
  ⟨_, act, h, fun _ hcode _ => beq_iff_eq.2 hcode⟩

/-- Each row of BLOCK_RESET takes an order whose form is wrong: it names no block. -/
theorem RowServes.of_serveBlock {τ : Nat} {c : Instr} {these : Block → Bool}
    (h : ∀ s, exec c s = .next (s.serveBlock τ these)) : RowServes τ (0x58, c) := by
  refine ⟨_, serveBlockReset, h, fun o hcode hform => ?_⟩
  have hnone : blockOf o = none := by rw [blockOf, hform, if_neg Bool.false_ne_true]
  rw [blockOrder, hcode, hnone]
  rfl

theorem orderRows_serve (τ : Nat) (order : FollowerOrder) :
    ∀ row ∈ orderRows τ order, RowServes τ row := by
  simp only [orderRows, List.forall_mem_cons]
  iterate 36 refine ⟨.of_serve fun _ => rfl, ?_⟩
  iterate 5 refine ⟨.of_serveBlock fun _ => rfl, ?_⟩
  exact ⟨.of_serve fun _ => rfl, fun _ h => nomatch h⟩

/-! ### The form test -/

/-- An order that changes nothing but the interface, in a row that takes it. -/
theorem serveIf_quiet {s : State} {o : Order} (h : Front s o) (τ : Nat) {mine : Order → Bool}
    {act : Order → State → Answer} {v : Verdict} {p : List Byte} (hm : mine o = true)
    (ha : act o (s.atDesk τ o) = ⟨s.atDesk τ o, v, p⟩) : s.serveIf τ mine act = s.answered τ o v p := by
  calc s.serveIf τ mine act
      = (act o (s.atDesk τ o)).state.finishServing o (act o (s.atDesk τ o)).verdict
          (act o (s.atDesk τ o)).payload := serveIf_front h τ mine act hm
    _ = (s.atDesk τ o).finishServing o v p := by rw [ha]
    _ = s.answered τ o v p := finishServing_eq (s := s.atDesk τ o) h.owed o v p

/-- Settles O12: the row of an order takes it when its form is wrong, and the test answers it there. -/
theorem formIsTestedBeforeAnOrderIsServed : Obligations.FormIsTestedBeforeAnOrderIsServed := by
  unfold Obligations.FormIsTestedBeforeAnOrderIsServed
  refine ⟨fun τ s o h hcode => ?_, fun τ order s o row h hrow hcode hform => ?_⟩
  · exact congrArg Host.Outcome.next (serveIf_quiet h τ
      (mine := fun o => (orderLength o.code).isNone) (by rw [hcode]; rfl) (act := serveUnknown) rfl)
  · obtain ⟨mine, act, hexec, hmine⟩ := orderRows_serve τ order row hrow
    rw [hexec s]
    refine congrArg Host.Outcome.next (serveIf_quiet h τ (hmine o hcode hform) ?_)
    rw [ifFormed, hform, if_neg Bool.false_ne_true]

/-! ### The reset pin and DEVICE_RESET -/

theorem exec_resetPinAssert {s : State} (h : s.pins.reset = false) :
    exec .resetPinAssert s = .next s.assertReset := if_neg (ne_true_of_eq_false h)

theorem exec_resetPinRelease {s : State} (h : s.pins.reset = true) :
    exec .resetPinRelease s = .next s.releaseReset := if_pos h

theorem canServe_resetDue {s : State} (h : s.control.resetDue = true) : s.canServe = false := by
  rw [State.canServe, h]
  simp

theorem exec_orderRow_resetDue {τ : Nat} {order : FollowerOrder} {s : State} {row : Byte × Instr}
    (h : s.control.resetDue = true) (hrow : row ∈ (0x00, Instr.unknownOrder τ) :: orderRows τ order) :
    exec row.2 s = .next s := by
  have hrefuses := serveIf_refuses (canServe_resetDue h) τ
  obtain rfl | hrow := List.mem_cons.1 hrow
  · exact congrArg Host.Outcome.next (hrefuses _ serveUnknown)
  · obtain ⟨mine, act, hexec, -⟩ := orderRows_serve τ order row hrow
    rw [hexec s, hrefuses]

theorem exec_deviceReset {τ : Nat} {s : State} {o : Order} (h : Serving s o 0x59) :
    exec (.deviceReset τ) s = .next { s.answered τ o .done [] with
      control := { s.control.answered o .done [] with resetDue := true } } := by
  refine congrArg Host.Outcome.next (serve_answer h τ (act := serveDeviceReset) (v := .done) (p := [])
    (t := { s.atDesk τ o with control := { (s.atDesk τ o).control with resetDue := true } }) rfl h.owed)
    |>.trans ?_
  exact congrArg (fun c => Host.Outcome.next { s.answered τ o .done [] with control := c })
    (answered_resetDue s.control true o .done [])

/-- Settles O7: no row serves while the reset is due, and both rows of its effect, the DONE on the line,
assert and release the pin. -/
theorem deviceResetActsAfterItsReply : Obligations.DeviceResetActsAfterItsReply := by
  unfold Obligations.DeviceResetActsAfterItsReply
  refine ⟨fun τ s o h => exec_deviceReset h, fun τ order s row h hrow => exec_orderRow_resetDue h hrow,
    fun τ s r hpin hdue hline hcode hdone => ?_⟩
  have honline : s.resetReplyOnLine = true := resetReplyOnLine_eq_true.2 ⟨hdue, r, hline, hcode, hdone⟩
  refine ⟨_, s.deviceReset, exec_resetPinAssert hpin, exec_resetPinRelease rfl, ?_, ?_⟩
  · change execDeviceResetTakesEffect s = _
    rw [execDeviceResetTakesEffect, hpin, honline]
    rfl
  · change execControlTxComplete τ s = _
    rw [execControlTxComplete, if_neg (by simp [hline]), hpin, if_neg Bool.false_ne_true, if_pos honline]

end Sys2Proof.Machine
end

section
/-! The reset pin: O4 and O5. -/

namespace Sys2Proof.Machine

/-- Settles O4: the part at reset, record by record, with what its lines and pins keep. -/
theorem resetPinAssertGivesTheResetValues : Obligations.ResetPinAssertGivesTheResetValues := by
  unfold Obligations.ResetPinAssertGivesTheResetValues
  intro s h
  refine ⟨s.assertReset, exec_resetPinAssert h, assertReset_resetValues s, rfl, rfl, rfl, rfl, rfl,
    fun w => ?_, fun i => ?_⟩
  · rw [assertReset_wall]
  · rw [assertReset_trig]

/-! ### HALT for every channel (R138) -/

theorem Recorder.issue_outbound {r : Recorder} {c : ChannelNo} (h : ∀ x ∈ r.queue, x.channel ≠ c)
    (op : RecOp) (g : Group) (f : FrameNo) : (r.issue c op g f).outbound = r.outbound ++ [⟨c, op⟩] := by
  rw [Recorder.issue_appends (queuedFor_none h), Recorder.begin_outbound]
  exact (List.append_assoc ..).symm

/-- Channels with no command queued, and no clip taken, are halted one after the other. -/
theorem foldl_issueHalt_outbound {l : List ChannelNo} (hl : l.Nodup) {s : State}
    (hq : ∀ x ∈ s.recorder.queue, x.channel ∉ l) (hclip : ∀ c, (s.chan c).clip = 0) :
    (l.foldl State.issueHalt s).recorder.outbound
      = s.recorder.outbound ++ l.map fun c => ⟨c, .halt 0⟩ := by
  induction l generalizing s with
  | nil => exact (List.append_nil _).symm
  | cons c l ih =>
    obtain ⟨hc, hl⟩ := List.nodup_cons.1 hl
    have hothers : ∀ x ∈ (s.issueHalt c).recorder.queue, x.channel ∉ l := fun x hx => by
      obtain ⟨rfl, -⟩ | ⟨-, hx⟩ := Recorder.mem_issue _ _ _ _ _ hx
      · exact hc
      · exact fun hm => hq x hx (List.mem_cons_of_mem _ hm)
    have hclips (b : ChannelNo) : ((s.issueHalt c).chan b).clip = 0 := by
      rw [State.issueHalt, issue_chan]
      exact hclip b
    have hout : (s.issueHalt c).recorder.outbound = s.recorder.outbound ++ [⟨c, .halt 0⟩] := by
      rw [← hclip c]
      exact Recorder.issue_outbound (fun x hx heq => hq x hx (heq ▸ List.mem_cons_self)) _ _ _
    rw [List.foldl_cons, ih hl hothers hclips, hout, List.append_assoc]
    rfl

theorem foldl_issueHalt_chan (l : List ChannelNo) (s : State) (c : ChannelNo) :
    (l.foldl State.issueHalt s).chan c = s.chan c :=
  foldl_keeps (I := fun u => u.chan c = s.chan c) (fun b hu => (issue_chan _ b _ _ _ c).trans hu) l rfl

/-! ### The raw levels (R99) -/

theorem setTrig_of_trig (s : State) (i : InputNo) : s.setTrig i (s.trig i) = s := by
  simp [State.setTrig, State.trig]

/-- The record of an input that has read its raw level at the running time 0, with Q at its reset value. -/
def Trigger.readAtStart (r : Trigger) : Trigger :=
  if r.raw then { r with interval := some ⟨0, 10⟩ } else r

theorem Trigger.readAtStart_readAtStart (r : Trigger) : r.readAtStart.readAtStart = r.readAtStart := by
  cases hraw : r.raw <;> simp [Trigger.readAtStart, hraw]

theorem Trigger.readAtStart_of_none {r : Trigger} (h : r.interval = none) :
    r.readAtStart = { r with interval := if r.raw then some ⟨0, 10⟩ else none } := by
  unfold Trigger.readAtStart
  split
  · rfl
  · rw [← h]

theorem Trigger.readAtStart_q (r : Trigger) : r.readAtStart.q = r.q := by
  unfold Trigger.readAtStart
  split <;> rfl

/-- The running time is 0, and Q has its reset value everywhere. -/
structure AtStart (s : State) : Prop where
  now : s.now = 0
  q   : ∀ i, (s.trig i).q = 10

section
variable {s : State} (h : AtStart s)
include h

theorem AtStart.readRaw_eq (i : InputNo) : s.readRaw i = s.setTrig i (s.trig i).readAtStart := by
  have hten : (s.trig i).q.toNat = 10 := by rw [h.q i]; rfl
  unfold State.readRaw State.startInterval Trigger.readAtStart
  dsimp only
  rw [hten, h.now]
  split
  · rfl
  · exact (setTrig_of_trig s i).symm

theorem AtStart.readRaw_trig (i j : InputNo) : (s.readRaw i).trig j
    = if j = i then (s.trig j).readAtStart else s.trig j := by
  rw [h.readRaw_eq, State.setTrig_trig]
  split
  · next heq => rw [heq]
  · rfl

theorem AtStart.readRaw (i : InputNo) : AtStart (s.readRaw i) := by
  refine ⟨by rw [h.readRaw_eq]; exact h.now, fun j => ?_⟩
  rw [h.readRaw_trig]
  split
  · exact (Trigger.readAtStart_q _).trans (h.q j)
  · exact h.q j

theorem AtStart.foldl_readRaw_trig (l : List InputNo) (j : InputNo) : (l.foldl State.readRaw s).trig j
    = if j ∈ l then (s.trig j).readAtStart else s.trig j := by
  induction l generalizing s with
  | nil => rfl
  | cons i l ih =>
    rw [List.foldl_cons, ih (h.readRaw i), h.readRaw_trig]
    by_cases hj : j = i
    · simp [hj, Trigger.readAtStart_readAtStart]
    · simp [hj]

theorem AtStart.foldl_readRaw_same (l : List InputNo) : SameBut [.triggers] s (l.foldl State.readRaw s) := by
  have hreads : AtStart (l.foldl State.readRaw s) ∧ SameBut [.triggers] s (l.foldl State.readRaw s) :=
    foldl_keeps (I := fun u => AtStart u ∧ SameBut [.triggers] s u)
      (fun i hu => ⟨hu.1.readRaw i, hu.2.trans (hu.1.readRaw_eq i ▸ setTrig_same _ i _)⟩) l ⟨h, .refl _ s⟩
  exact hreads.2

end

/-! ### The release -/

/-- The link has read its carrier, and the channels are halted. -/
def State.halted (s : State) : State := (List.finRange 16).foldl State.issueHalt s.started.readCarrier

theorem releaseReset_halted (s : State) :
    s.releaseReset = (List.finRange 8).foldl State.readRaw s.halted := rfl

theorem halted_same (s : State) : SameBut [.control, .link, .recorder] s.started s.halted :=
  (readCarrier_same _).comp (SameBut.foldl issueHalt_same _ _) (by decide) (by decide)

theorem halted_trig (s : State) (i : InputNo) : s.halted.trig i = s.trig i := by
  have htriggers : s.halted.triggers = s.triggers := halted_same s .triggers (by decide)
  exact congrArg (fun v => v[i]) htriggers

section
variable {s : State} (h : ResetValues s)
include h

theorem ResetValues.started_same : SameBut [.pins] s s.started := by
  have hstarted : s.started = { s with pins := { s.pins with reset := false } } := by
    rw [State.started, ← h.now]
  rw [hstarted]
  exact withPins_same s _

theorem ResetValues.readCarrier_started (hc : s.pins.carrier = true) :
    SurveyStarted s.started s.started.readCarrier := by
  have hread : s.started.readCarrier = s.started.startSurvey := if_pos hc
  rw [hread]
  exact startSurvey_started h.link.1

theorem ResetValues.readCarrier_control (hc : s.pins.carrier = true) :
    s.started.readCarrier.control = s.control.raise (linkNotice .surveying .down .carrierGained 0 0) := by
  have hcontrol : s.started.readCarrier.control = s.control.raise
      (linkNotice .surveying .down .carrierGained s.map.dests s.map.sources) :=
    (accounts_eq_iff.1 (h.readCarrier_started hc).accounts).1
  obtain ⟨hdests, hsources⟩ := h.counts
  rw [hcontrol, hdests, hsources]

/-- The notices of the link are on, and their queue is empty. -/
theorem ResetValues.notifies_link (after before : LinkState) (cause : LinkCause) (dests sources : Nat) :
    Notified s.control (s.control.raise (linkNotice after before cause dests sources))
      [linkNotice after before cause dests sources] := by
  have henables : s.control.enables = 0x7B := congrArg Control.enables h.control
  have hnotices : s.control.notices = [] := congrArg Control.notices h.control
  refine raise_notified ?_ ?_
  · rw [henables]
    change (0x7B : Byte).getLsbD (kindBit .linkState) = true
    decide
  · rw [hnotices]
    decide

theorem ResetValues.halted_atStart : AtStart s.halted := by
  refine ⟨halted_same s .now (by decide), fun i => ?_⟩
  rw [halted_trig]
  exact congrArg Trigger.q (h.triggers i)

theorem ResetValues.release_trig (i : InputNo) : s.releaseReset.trig i
    = { s.trig i with interval := if (s.trig i).raw then some ⟨0, 10⟩ else none } := by
  rw [releaseReset_halted, h.halted_atStart.foldl_readRaw_trig, if_pos (List.mem_finRange i), halted_trig]
  exact Trigger.readAtStart_of_none (congrArg Trigger.interval (h.triggers i))

theorem ResetValues.release_halted : SameBut [.triggers] s.halted s.releaseReset :=
  h.halted_atStart.foldl_readRaw_same _

/-- The link and the interface are as the carrier leaves them. -/
theorem ResetValues.release_carrier : SameBut [.recorder, .triggers] s.started.readCarrier s.releaseReset :=
  (SameBut.foldl issueHalt_same (List.finRange 16) _).comp h.release_halted (by decide) (by decide)

theorem ResetValues.release_same :
    SameBut [.pins, .control, .link, .triggers, .recorder] s s.releaseReset := by
  have hhalted : SameBut [.pins, .control, .link, .recorder] s s.halted :=
    h.started_same.comp (halted_same s) (by decide) (by decide)
  exact hhalted.comp h.release_halted (by decide) (by decide)

theorem ResetValues.release_outbound : s.releaseReset.recorder.outbound
    = s.recorder.outbound ++ (List.finRange 16).map fun c => ⟨c, .halt 0⟩ := by
  have hread : s.started.readCarrier.recorder = s.recorder := readCarrier_same s.started .recorder (by decide)
  have hrec : s.releaseReset.recorder = s.halted.recorder := h.release_halted .recorder (by decide)
  rw [hrec, State.halted, foldl_issueHalt_outbound (List.nodup_finRange 16), hread]
  · rw [hread, h.line.1]
    exact fun _ hx => nomatch hx
  · intro c
    rw [chan_of_same (readCarrier_same s.started)]
    exact congrArg Channel.clip (h.channels c)

theorem ResetValues.release_chan (c : ChannelNo) : s.releaseReset.chan c = s.chan c := by
  rw [chan_of_same h.release_halted, State.halted, foldl_issueHalt_chan,
    chan_of_same (readCarrier_same s.started)]
  rfl

end

/-- Settles O5, block by block: the carrier is read, the channels are halted, the raw levels are read. -/
theorem resetPinReleaseStartsOperation : Obligations.ResetPinReleaseStartsOperation := by
  unfold Obligations.ResetPinReleaseStartsOperation
  intro s hpin h
  have hlink : s.releaseReset.link = s.started.readCarrier.link := h.release_carrier .link (by decide)
  have hcontrol : s.releaseReset.control = s.started.readCarrier.control :=
    h.release_carrier .control (by decide)
  refine ⟨s.releaseReset, exec_resetPinRelease hpin, h.release_same, releaseReset_pins s, fun hc => ?_,
    fun hc => ?_, h.release_outbound, h.release_chan, h.release_trig⟩
  · have habsent : s.started.readCarrier = s.started := if_neg (ne_true_of_eq_false hc)
    rw [hlink, hcontrol, habsent]
    exact ⟨rfl, rfl⟩
  · have hst := h.readCarrier_started hc
    obtain ⟨-, hwaiting, hunmatched, -⟩ := h.link
    have hpool : s.releaseReset.link.pool = s.link.pool := (congrArg Link.pool hlink).trans hst.pool.1
    rw [hlink, hcontrol, h.readCarrier_control hc]
    refine ⟨hst.state, hst.outbound, fun k => ?_, hst.pool.2.trans hwaiting, hst.kept.1.trans hunmatched,
      h.notifies_link .., raise_outReplies _ _⟩
    rw [State.token, hpool]
    exact h.pool k

end Sys2Proof.Machine
end

section
/-! Frames on the control line: O8, O9 and O10. -/

namespace Sys2Proof.Machine

/-- The state in which bytes that have arrived on the control line are judged. -/
def State.bytesTaken (s : State) (τ : Nat) : State :=
  { s.clock τ with control := { s.control with lastByte := max s.now τ } }

section
variable {s : State} (τ : Nat) (hr : s.pins.reset = false) (ho : s.recorder.high = [])
  (hrec : s.control.receiver = .hunting)
include hr ho hrec

theorem exec_controlFrameReceived (bytes : List Byte) : exec (.controlFrameReceived τ bytes) s
    = .next (bytes.foldl State.controlByte (s.bytesTaken τ)) := by
  have hsame : SameBut [.control] (s.bytesTaken τ) (bytes.foldl State.controlByte (s.bytesTaken τ)) :=
    SameBut.foldl controlByte_same bytes _
  have hrecorder : (bytes.foldl State.controlByte (s.bytesTaken τ)).recorder = s.recorder :=
    hsame .recorder (by decide)
  refine congrArg Host.Outcome.next ((event_eq_paid hr τ _).trans ?_)
  rw [controlBytes_hunting (s := s.clock τ) hrec]
  exact paid_of_owed ((congrArg Recorder.high hrecorder).trans ho)

/-- The frame of a body in range comes to what the body comes to. -/
theorem exec_controlFrameReceived_frame {body : List Byte} (hb : 6 ≤ body.length ∧ body.length ≤ 1024) :
    exec (.controlFrameReceived τ (frameOf body)) s = .next ((s.bytesTaken τ).judgeBody body) := by
  rw [exec_controlFrameReceived τ hr ho hrec]
  have hframe := controlByte_frame (s := s.bytesTaken τ) hrec hb
    (BitVec.ofNat 8 ((crc (be16 body.length ++ body)).toNat / 256))
    (BitVec.ofNat 8 (crc (be16 body.length ++ body)).toNat)
  rw [if_pos (be16_append _).symm] at hframe
  exact congrArg Host.Outcome.next hframe

/-- The frame of an order comes to what its ticket and the order buffer make of it. -/
theorem exec_controlFrameReceived_order {o : Order} (hd : o.declared < 65536) (hp : o.payload.length ≤ 1017) :
    exec (.controlFrameReceived τ (frameOf (orderBody o))) s
      = .next (if o.ticket = 0 then (s.bytesTaken τ).receiverReply ⟨o.code, 0, .malformed, []⟩
          else (s.bytesTaken τ).offer o) := by
  have hlength : (orderBody o).length = 7 + o.payload.length := by
    simp only [orderBody, be16, List.length_append, List.length_cons, List.length_nil]
  rw [exec_controlFrameReceived_frame τ hr ho hrec (by omega), State.judgeBody, if_neg (by omega),
    if_neg (not_not.2 (show byteAt (orderBody o) 0 = 0x01 from rfl)), orderOf_orderBody hd]

end

/-- Settles O8: the frame of an order comes to the order, and the buffer takes it. -/
theorem orderFrameIsDecodedIntoTheBuffer : Obligations.OrderFrameIsDecodedIntoTheBuffer := by
  unfold Obligations.OrderFrameIsDecodedIntoTheBuffer
  intro τ s o hr ho hrec hroom hticket hd hp
  have hoffer : (s.bytesTaken τ).offer o = _ := if_pos hroom
  rw [exec_controlFrameReceived_order τ hr ho hrec hd hp, if_neg hticket, hoffer]
  rfl

/-! ### What the receiver answers itself, and what it discards -/

theorem bytesTaken_receiverReply (s : State) (τ : Nat) (r : Reply) : (s.bytesTaken τ).receiverReply r
    = { s with
        now := max s.now τ
        control :=
          if s.control.replies.length < 16 then
            Control.pushReply { s.control with lastByte := max s.now τ } r
          else { s.control with
            lastByte := max s.now τ, discards := min (s.control.discards + 1) 65535 } } := by
  have hroom : (s.bytesTaken τ).control.replies = s.control.replies := rfl
  rw [State.receiverReply, hroom, show Config.replyRoom = 16 from rfl]
  split
  · rfl
  · rfl

/-- Settles O9, by whether the ticket is 0 and whether the reply list has room. -/
theorem receiverAnswersFullAndTicketZero : Obligations.ReceiverAnswersFullAndTicketZero := by
  unfold Obligations.ReceiverAnswersFullAndTicketZero
  intro τ s o hr ho hrec hd hp hanswers
  rw [exec_controlFrameReceived_order τ hr ho hrec hd hp, ← bytesTaken_receiverReply]
  by_cases hticket : o.ticket = 0
  · rw [if_pos hticket, if_pos hticket, hticket]
  · have hfull : ¬(s.bytesTaken τ).control.orders.length < Config.orderRoom :=
      Nat.not_lt.2 (hanswers.resolve_left hticket)
    rw [if_neg hticket, if_neg hticket, State.offer, if_neg hfull]

theorem controlByte_range {s : State} (hrec : s.control.receiver = .hunting) {n : Nat} (hn : n < 65536)
    (hrange : ¬ (6 ≤ n ∧ n ≤ 1024)) : (0xB4#8 :: be16 n).foldl State.controlByte s = s.discard := by
  rw [← spelled_be16 hn] at hrange
  have hback : ({ s with control := { s.control with receiver := .hunting } } : State) = s := by
    rw [← hrec]
  have hlead : receiverTake s.control.receiver 0xB4#8 = (.taking [], .nothing) := by
    rw [hrec, receiverTake_lead]
  rw [be16, List.foldl_cons, controlByte_nothing hlead, List.foldl_cons,
    controlByte_nothing (receiverTake_high _), List.foldl_cons, controlByte_bad (receiverTake_range hrange)]
  exact congrArg State.discard hback

theorem judgeBody_discards {s : State} {body : List Byte} (hb : 6 ≤ body.length)
    (h : body.length = 6 ∨ body.head? ≠ some 0x01) : s.judgeBody body = s.discard := by
  by_cases hshort : body.length < 7
  · exact if_pos hshort
  · obtain ⟨b, bs, rfl⟩ := List.exists_cons_of_length_pos (l := body) (by omega)
    have hkind : b ≠ 0x01 := fun hb => h.resolve_left (by omega) (congrArg some hb)
    rw [State.judgeBody, if_neg hshort, if_pos (show byteAt (b :: bs) 0 ≠ 0x01 from hkind)]

/-- Two bytes that spell another number than a check do not make that check. -/
theorem check_ne_of_ne {c : Nat} {w : Word16} (hc : c < 65536) (h : c ≠ w.toNat) :
    w ≠ BitVec.ofNat 8 (c / 256) ++ BitVec.ofNat 8 c := by
  have hword := be16_append (BitVec.ofNat 16 c)
  rw [BitVec.toNat_ofNat, Nat.mod_eq_of_lt hc] at hword
  rw [hword]
  exact fun heq => h (by rw [heq, BitVec.toNat_ofNat, Nat.mod_eq_of_lt hc])

/-- Settles O10, by the place at which the frame fails. -/
theorem badControlFrameIsDiscardedAndCounted : Obligations.BadControlFrameIsDiscardedAndCounted := by
  unfold Obligations.BadControlFrameIsDiscardedAndCounted
  intro τ s bytes hr ho hrec hbad
  have hdiscard (h : exec (.controlFrameReceived τ bytes) s = .next (s.bytesTaken τ).discard) :
      exec (.controlFrameReceived τ bytes) s = .next { s with
        now := max s.now τ
        control := { s.control with
          lastByte := max s.now τ, discards := min (s.control.discards + 1) 65535 } } := h
  refine hdiscard ?_
  obtain ⟨n, hn, hrange, rfl⟩ | ⟨body, c, h6, hmax, hc, hne, rfl⟩ | ⟨body, h6, hmax, hkind, rfl⟩ := hbad
  · rw [exec_controlFrameReceived τ hr ho hrec]
    exact congrArg Host.Outcome.next (controlByte_range (s := s.bytesTaken τ) hrec hn hrange)
  · rw [exec_controlFrameReceived τ hr ho hrec]
    exact congrArg Host.Outcome.next
      ((controlByte_frame (s := s.bytesTaken τ) hrec ⟨h6, hmax⟩ _ _).trans (if_neg (check_ne_of_ne hc hne)))
  · rw [exec_controlFrameReceived_frame τ hr ho hrec ⟨h6, hmax⟩, judgeBody_discards h6 hkind]

end Sys2Proof.Machine
end

section
/-! A gap on a line, and what arrives after it: O11. -/

namespace Sys2Proof.Machine

/-- A state taken to an earlier time first reaches the later one as it is. -/
theorem clock_clock_of_le {s : State} {t τ : Nat} (h : t ≤ max s.now τ) :
    (s.clock t).clock τ = s.clock τ := by
  have hmax : max (max s.now t) τ = max s.now τ := by omega
  exact congrArg (fun n => { s with now := n }) hmax

/-! ### The control line (R153) -/

/-- Bytes that arrive after a gap find the frame abandoned. -/
theorem controlBytes_gap {s : State} (hrec : s.control.receiver ≠ .hunting)
    (hgap : s.control.lastByte + 27000 < s.now) (bytes : List Byte) :
    s.controlBytes bytes = s.controlGap.controlBytes bytes := by
  rw [controlBytes_hunting (s := s.controlGap) rfl, State.controlBytes, if_pos ⟨hrec, hgap⟩]

theorem exec_controlFrameGapTimeout {s : State} (hr : s.pins.reset = false) (ho : s.recorder.high = [])
    (hrec : s.control.receiver ≠ .hunting) : exec .controlFrameGapTimeout s
      = .next (s.clock (s.control.lastByte + 27001)).controlGap := by
  refine (if_neg hrec).trans (congrArg Host.Outcome.next ((event_eq_paid hr _ _).trans ?_))
  exact paid_of_owed ho

theorem exec_controlFrameReceived_gap {s : State} {τ : Nat} (hr : s.pins.reset = false)
    (hrec : s.control.receiver ≠ .hunting) (hgap : s.control.lastByte + 27000 < max s.now τ)
    (bytes : List Byte) : exec (.controlFrameReceived τ bytes) s
      = exec (.controlFrameReceived τ bytes) (s.clock (s.control.lastByte + 27001)).controlGap := by
  have hclock := clock_clock_of_le (s := s) (t := s.control.lastByte + 27001) hgap
  have hgapped : (s.clock (s.control.lastByte + 27001)).controlGap.clock τ = (s.clock τ).controlGap :=
    congrArg State.controlGap hclock
  refine congrArg Host.Outcome.next ?_
  rw [event_eq_paid hr, event_eq_paid (s := (s.clock (s.control.lastByte + 27001)).controlGap) hr, hgapped,
    controlBytes_gap (s := s.clock τ) hrec hgap]

/-! ### The matrix line (R68) -/

theorem matrixBytes_up {s : State} (hl : s.link.state ≠ .down) (bytes : List Byte) : s.matrixBytes bytes
    = bytes.foldl State.matrixByte { s.endMatrixGap with
        link := { s.endMatrixGap.link with lastByte := s.endMatrixGap.now } } := if_neg hl

section
variable {s : State} {τ : Nat} (hr : s.pins.reset = false) (hrec : s.link.receiver ≠ .hunting)
  (hl : s.link.state ≠ .down) (hgap : s.link.lastByte + 27000 < max s.now τ)

include hrec hgap in
theorem matrixStale_gap : s.matrixStale (max s.now τ) = true := by
  rw [State.matrixStale, bne_iff_ne.2 hrec]
  exact decide_eq_true hgap

include hrec hl hgap in
/-- What arrives after a gap finds the frame abandoned, as its own row leaves it. -/
theorem endMatrixGap_gap : (s.clock τ).endMatrixGap
    = ((s.clock (s.link.lastByte + 27001)).matrixGap.clock τ).endMatrixGap := by
  have hclock := clock_clock_of_le (s := s) (t := s.link.lastByte + 27001) hgap
  rw [endMatrixGap_hunting (s := (s.clock (s.link.lastByte + 27001)).matrixGap.clock τ) rfl]
  exact (if_pos ⟨hl, matrixStale_gap hrec hgap⟩).trans (congrArg State.matrixGap hclock.symm)

include hr hrec hl in
theorem exec_matrixFrameGapTimeout (ho : s.recorder.high = []) : exec .matrixFrameGapTimeout s
    = .next (s.clock (s.link.lastByte + 27001)).matrixGap := by
  refine (if_neg (not_or.2 ⟨hrec, hl⟩)).trans
    (congrArg Host.Outcome.next ((event_eq_paid hr _ _).trans ?_))
  exact paid_of_owed ho

include hr hrec hl hgap

theorem exec_matrixBadFrame_gap (bytes : List Byte) : exec (.matrixBadFrame τ bytes) s
    = exec (.matrixBadFrame τ bytes) (s.clock (s.link.lastByte + 27001)).matrixGap := by
  refine congrArg Host.Outcome.next ?_
  rw [event_eq_paid hr, event_eq_paid (s := (s.clock (s.link.lastByte + 27001)).matrixGap) hr,
    matrixBytes_up (s := s.clock τ) hl,
    matrixBytes_up (s := (s.clock (s.link.lastByte + 27001)).matrixGap.clock τ) hl,
    endMatrixGap_gap hrec hl hgap]

theorem wholeMessage_gap (act : State → State) : s.wholeMessage τ act
    = (s.clock (s.link.lastByte + 27001)).matrixGap.wholeMessage τ act := by
  rw [State.wholeMessage, if_pos (.inr (matrixStale_gap hrec hgap)), State.wholeMessage, if_pos (.inl rfl),
    event_eq_paid hr, event_eq_paid (s := (s.clock (s.link.lastByte + 27001)).matrixGap) hr]
  exact congrArg (fun u => (act u).paid) (endMatrixGap_gap hrec hl hgap)

end

/-- Settles O11: the row of each gap abandons the frame, and what arrives later does the same first. -/
theorem gapAbandonsTheFrame : Obligations.GapAbandonsTheFrame := by
  unfold Obligations.GapAbandonsTheFrame
  intro s hr ho
  refine ⟨fun hrec => ⟨exec_controlFrameGapTimeout hr ho hrec, fun τ bytes hgap =>
    exec_controlFrameReceived_gap hr hrec hgap bytes⟩, fun hrec hl =>
    ⟨exec_matrixFrameGapTimeout hr hrec hl ho, fun τ hgap => ⟨exec_matrixBadFrame_gap hr hrec hl hgap,
      fun dests sources => ?_, fun dest source token held survey => ?_⟩⟩⟩
  · exact congrArg Host.Outcome.next (wholeMessage_gap hr hrec hl hgap _)
  · exact congrArg Host.Outcome.next (wholeMessage_gap hr hrec hl hgap _)

end Sys2Proof.Machine
end
